-- ==== Sys2Proof/Word.lean ====
section
/-! DEFINITION. The word types of the block: a buffer element is an 8-bit byte, the ack/nack marker, the
device-id and the checksum are 16 bits, parameters, lengths, durations and rates are 32 bits (00_scope.md R12). -/

namespace Sys2Proof

/-- An element of every buffer (R12). -/
abbrev Byte := BitVec 8

/-- The ack/nack marker, the device-id and the checksum (R12). -/
abbrev Half := BitVec 16

/-- A parameter, a length, a duration in ticks or a baud rate (R12). -/
abbrev Word := BitVec 32

end Sys2Proof
end

