-- ==== Sys2Proof/Config.lean ====
section
/-! DEFINITION. The configuration parameters of 00_scope.md R6 to R10: fixed for the life of a model instance,
never state (R293). The three OPEN parameters of R9 and the two parameters of R10 are opaque: nothing can be proved of
the value an implementation gives them beyond the bounds written here. -/

namespace Sys2Proof

/-- `P_NOISE_POLICY`'s two values (00_scope.md R9). -/
inductive NoisePolicy where
  /-- Head bytes that begin no frame stay in `RB` (41_frame_codec.md R126). -/
  | retain
  /-- Head bytes that can begin no frame are discarded (41_frame_codec.md R127). -/
  | resync
  deriving DecidableEq, Repr, Inhabited

/-- `P_CR_MARK0`, the first byte of a Command or Response frame (R6). -/
def Config.crMark0 : Byte := 0x55
/-- `P_CR_MARK1` (R6). -/
def Config.crMark1 : Byte := 0xAA
/-- `P_D_MARK0`, the first byte of a Data frame (R6). -/
def Config.dMark0 : Byte := 0x5A
/-- `P_D_MARK1` (R6). -/
def Config.dMark1 : Byte := 0xA5
/-- `P_DEVICE_ID` (R6). -/
def Config.deviceId : Half := 0x0001
/-- `P_ACK` (R6). -/
def Config.ack : Half := 0x0030
/-- `P_NACK` (R6). -/
def Config.nack : Half := 0x0031
/-- `P_CR_LEN`, the bytes of a Command or Response frame (R6). -/
def Config.crLen : Nat := 12
/-- `P_D_OVH`, the bytes of a Data frame that are not payload (R6). -/
def Config.dOvh : Nat := 6
/-- `P_DUP_LIMIT`: a NACK parameter below it is a duplicate ID (R6). -/
def Config.dupLimit : Word := 200

/-- `P_T_CMD`, ticks (R7). -/
def Config.tCmd : Word := 1000
/-- `P_T_SENDPAY`, ticks (R7). -/
def Config.tSendpay : Word := 1000
/-- `P_T_TEMPLATE`, ticks (R7). -/
def Config.tTemplate : Word := 5000
/-- `P_T_IMAGE`, ticks (R7). -/
def Config.tImage : Word := 10000
/-- `P_T_ATTEMPT`, ticks (R7). -/
def Config.tAttempt : Word := 5000
/-- `P_T_SETTLE`, ticks (R7). -/
def Config.tSettle : Word := 200

/-- `P_LEN_TEMPLATE` (R8). -/
def Config.lenTemplate : Word := 498
/-- `P_LEN_IMAGE` (R8). -/
def Config.lenImage : Word := 52116
/-- `P_LEN_RAWIMAGE` (R8). -/
def Config.lenRawImage : Word := 19200
/-- `P_BAUD_LIST`, in this order (R8). -/
def Config.baudList : List Word := [9600, 115200, 57600, 38400, 19200]
/-- `P_NATTEMPT`, the length of `P_BAUD_LIST` (R8), in the width of `NIDX`. -/
def Config.nAttempt : BitVec 3 := 5

/-- What `P_RBUF_CAP` has beyond the 52122 bytes that R9 asks for. OPEN (log 9). Its upper bound keeps the
capacity below 2^32, so that every legal `EDL` fits its 32 bits (10_state.md R23). -/
opaque Config.rbufSlack : Fin 4294915174

/-- `P_RBUF_CAP`, the bytes `RB` can hold (R9; log 9). -/
def Config.rbufCap : Nat := Config.rbufSlack.val + 52122

/-- What `P_PBUF_CAP` has beyond the 52116 bytes that R9 asks for. OPEN (log 9). DESIGN CHOICE: its upper bound keeps
the length `N + 6` of every Data frame that can be sent below 2^32, so that it fits the byte count with which the
transport answers a write, which has 32 bits by the model's own choice (log 22). -/
opaque Config.pbufSlack : Fin 4294915174

/-- `P_PBUF_CAP`, the bytes of `PBUF` (R9; log 9). -/
def Config.pbufCap : Nat := Config.pbufSlack.val + 52116

/-- `n` bytes fill `RB`. The first test follows from the second (R9) and lets small numbers be decided without the
OPEN capacity. -/
def Config.rbufFull (n : Nat) : Bool := decide (52122 ≤ n) && decide (n = Config.rbufCap)

/-- `n` bytes fit `RB`. The first test implies the second (R9). -/
def Config.fitsRbuf (n : Nat) : Bool := decide (n ≤ 52122) || decide (n ≤ Config.rbufCap)

/-- `n` bytes fit `PBUF`. The first test implies the second (R9). -/
def Config.fitsPbuf (n : Nat) : Bool := decide (n ≤ 52116) || decide (n ≤ Config.pbufCap)

/-- `P_NOISE_POLICY` (R9; log 10). OPEN. -/
opaque Config.noisePolicy : NoisePolicy

/-- The default of `P_OPEN_PARAM`. PRESUMED: the spec itself takes it from general knowledge (R10; log 11). -/
def Config.openParamDefault : Word := 1
/-- The default of `P_IDENT_LEN`. PRESUMED: the spec itself takes it from general knowledge (R10; log 11). -/
def Config.identLenDefault : Word := 24

/-- `P_OPEN_PARAM`, a parameter of the model: any parameter of the OPEN command (R10; log 11). -/
opaque Config.openParam : Word

/-- What `P_IDENT_LEN` has beyond the 24 bytes that the identity registers are read from (44_baud_negotiator.md R238).
Its upper bound is `P_LEN_IMAGE`, which every `P_PBUF_CAP` holds (log 11). -/
opaque Config.identSlack : Fin 52093

/-- `P_IDENT_LEN`, a parameter of the model (R10; log 11). -/
def Config.identLen : Word := BitVec.ofNat 32 (Config.identSlack.val + 24)

end Sys2Proof
end

