-- ==== Sys2Proof/Syntax.lean ====
section
/-! DEFINITION. The instructions: one constructor per row of spec/opcode_table.json (00_scope.md R5), and the
two ports their records arrive on. -/

namespace Sys2Proof

/-- Where an input record arrives: from the host (30_encoding.md R93) or from the transport and the time base
(R94). The direction also tells a Command frame from a Response frame and a sent Data frame from a received
one (R80). -/
inductive Port where
  | host
  | link
  deriving DecidableEq, Repr

/-- The 24 opcodes by name (30_encoding.md R89). -/
inductive Command where
  | openDev | closeDev | usbCheck | changeBaudrate | cmosLed | getEnrollCount | checkEnrolled | enrollStart
  | enroll1 | enroll2 | enroll3 | isPressFinger | deleteId | deleteAll | verify | identify | verifyTemplate
  | identifyTemplate | captureFinger | makeTemplate | getImage | getRawImage | getTemplate | setTemplate
  deriving DecidableEq, Repr

/-- One constructor per row of the opcode table. -/
inductive Instr where
  /-- OPEN, 0x01 (43_commands.md R190). -/
  | openCmd (param : Word)
  /-- CLOSE, 0x02 (R191). -/
  | closeCmd (param : Word)
  /-- USB_CHECK, 0x03 (R192). -/
  | usbCheck (param : Word)
  /-- CHANGE_BAUDRATE, 0x04 (R193). -/
  | changeBaudrate (param : Word)
  /-- CMOS_LED, 0x12 (R194). -/
  | cmosLed (param : Word)
  /-- GET_ENROLL_COUNT, 0x20 (R195). -/
  | getEnrollCount (param : Word)
  /-- CHECK_ENROLLED, 0x21 (R196). -/
  | checkEnrolled (param : Word)
  /-- ENROLL_START, 0x22 (R197). -/
  | enrollStart (param : Word)
  /-- ENROLL1, 0x23 (R198). -/
  | enroll1 (param : Word)
  /-- ENROLL2, 0x24 (R199). -/
  | enroll2 (param : Word)
  /-- ENROLL3, 0x25 (R200). -/
  | enroll3 (param : Word)
  /-- IS_PRESS_FINGER, 0x26 (R201). -/
  | isPressFinger (param : Word)
  /-- DELETE_ID, 0x40 (R202). -/
  | deleteId (param : Word)
  /-- DELETE_ALL, 0x41 (R203). -/
  | deleteAll (param : Word)
  /-- VERIFY, 0x50 (R204). -/
  | verify (param : Word)
  /-- IDENTIFY, 0x51 (R205). -/
  | identify (param : Word)
  /-- VERIFY_TEMPLATE, 0x52 (R206). -/
  | verifyTemplate (param : Word)
  /-- IDENTIFY_TEMPLATE, 0x53 (R207). -/
  | identifyTemplate (param : Word)
  /-- CAPTURE_FINGER, 0x60 (R208). -/
  | captureFinger (param : Word)
  /-- MAKE_TEMPLATE, 0x61 (R209). -/
  | makeTemplate (param : Word)
  /-- GET_IMAGE, 0x62 (R210). -/
  | getImage (param : Word)
  /-- GET_RAW_IMAGE, 0x63 (R211). -/
  | getRawImage (param : Word)
  /-- GET_TEMPLATE, 0x70 (R212). -/
  | getTemplate (param : Word)
  /-- SET_TEMPLATE, 0x71 (R213). -/
  | setTemplate (param : Word)
  /-- A received Response frame with marker 0x0030; its checksum field may be wrong (30_encoding.md R82). -/
  | responseAck (dev : Half) (param : Word) (csum : Half)
  /-- A received Response frame with marker 0x0031 (R82). -/
  | responseNack (dev : Half) (param : Word) (csum : Half)
  /-- A received Response frame with any other marker (R88). -/
  | responseOtherMarker (dev : Half) (param : Word) (marker csum : Half)
  /-- A Data frame the block sends; its device-id and checksum are the encoder's (41_frame_codec.md R121). -/
  | dataOut (payload : List Byte)
  /-- A received Data frame; its checksum field may be wrong (R83). -/
  | dataIn (dev : Half) (payload : List Byte) (csum : Half)
  /-- Host request kind 0 (42_correlator.md R151). -/
  | send (op : Byte) (param tmo : Word)
  /-- Host request kind 1 (R152). -/
  | recv (op : Byte) (param len tmo : Word)
  /-- Host request kind 2 (R153). -/
  | sendpay (len tmo : Word)
  /-- Host request kind 3 (44_baud_negotiator.md R230). -/
  | negotiate (target : Word)
  /-- Host request kind 4 (70_reset_and_hazards.md R291). -/
  | sessionReset
  /-- Reserved host request kind 5 (42_correlator.md R150). -/
  | reservedReq5
  /-- Reserved host request kind 6 (R150). -/
  | reservedReq6
  /-- Reserved host request kind 7 (R150). -/
  | reservedReq7
  /-- Input event 0: bytes arrive (41_frame_codec.md R122). -/
  | rxChunk (bytes : List Byte)
  /-- Input event 1: the transport answers a write (42_correlator.md R155). The spec gives `count` no width: 32 bits are
  the model's choice (log 22). -/
  | txDone (ok : Bool) (count : Word)
  /-- Input event 2: the transport answers an open (44_baud_negotiator.md R249). -/
  | openDone (ok : Bool)
  /-- Input event 3: the transport answers a close (R249). -/
  | closeDone (ok : Bool)
  /-- Input event 4: asynchronous transport error (60_exceptions.md R273). -/
  | tpError
  /-- Input event 5: the time base (42_correlator.md R163). -/
  | tick
  /-- Reserved input event code 6 (60_exceptions.md R264). -/
  | reservedEvt6
  /-- Reserved input event code 7 (R264). -/
  | reservedEvt7
  deriving DecidableEq, Repr

end Sys2Proof
end

