-- ==== Sys2Proof/Machine/Operands.lean ====
section
/-! DEFINITION. Operand forms: little-endian assembly and splitting of multi-byte integers (00_scope.md R13,
20_memory.md R64), and the opcode byte of each named command (30_encoding.md R89). -/

namespace Sys2Proof.Machine

/-- `LE16(a, b) = a + 256*b` (R13). -/
def le16 (a b : Byte) : Half := BitVec.ofNat 16 (a.toNat + 256 * b.toNat)

/-- `LE32(a, b, c, d)` (R13). -/
def le32 (a b c d : Byte) : Word :=
  BitVec.ofNat 32 (a.toNat + 256 * b.toNat + 65536 * c.toNat + 16777216 * d.toNat)

/-- Byte `k` of `v`, counted from the least significant (R13). -/
def byteOf (v : Nat) (k : Nat) : Byte := BitVec.ofNat 8 (v / 256 ^ k)

/-- `bytesLE16(v)` (R13). -/
def bytesLE16 (v : Half) : List Byte := [byteOf v.toNat 0, byteOf v.toNat 1]

/-- `bytesLE32(v)` (R13). -/
def bytesLE32 (v : Word) : List Byte :=
  [byteOf v.toNat 0, byteOf v.toNat 1, byteOf v.toNat 2, byteOf v.toNat 3]

/-- Element `i` of a received frame; every use is within the frame's length. -/
def frameByte (f : List Byte) (i : Nat) : Byte := f.getD i 0

/-- The opcode byte of a named command (R89). -/
def opcodeOf : Command → Byte
  | .openDev => 0x01
  | .closeDev => 0x02
  | .usbCheck => 0x03
  | .changeBaudrate => 0x04
  | .cmosLed => 0x12
  | .getEnrollCount => 0x20
  | .checkEnrolled => 0x21
  | .enrollStart => 0x22
  | .enroll1 => 0x23
  | .enroll2 => 0x24
  | .enroll3 => 0x25
  | .isPressFinger => 0x26
  | .deleteId => 0x40
  | .deleteAll => 0x41
  | .verify => 0x50
  | .identify => 0x51
  | .verifyTemplate => 0x52
  | .identifyTemplate => 0x53
  | .captureFinger => 0x60
  | .makeTemplate => 0x61
  | .getImage => 0x62
  | .getRawImage => 0x63
  | .getTemplate => 0x70
  | .setTemplate => 0x71

/-- The named commands in opcode order (R89). -/
def allCommands : List Command :=
  [.openDev, .closeDev, .usbCheck, .changeBaudrate, .cmosLed, .getEnrollCount, .checkEnrolled, .enrollStart,
   .enroll1, .enroll2, .enroll3, .isPressFinger, .deleteId, .deleteAll, .verify, .identify, .verifyTemplate,
   .identifyTemplate, .captureFinger, .makeTemplate, .getImage, .getRawImage, .getTemplate, .setTemplate]

/-- The named command of an opcode byte, if R89 lists it. -/
def commandOf (op : Byte) : Option Command := allCommands.find? (fun c => opcodeOf c == op)

end Sys2Proof.Machine
end

