-- ==== Sys2Proof/Machine/Flags.lean ====
section
/-! DEFINITION. The block's arithmetic and its per-frame flags: the additive checksum (40_checksum.md R110),
`checksum_valid` (R112), `acknowledged` (30_encoding.md R88), and the meaning of a NACK code (R91). -/

namespace Sys2Proof.Machine

/-- `Checksum(s)`: the sum of the bytes modulo 2^16 (R110). -/
def checksum (s : List Byte) : Half := BitVec.ofNat 16 ((s.map BitVec.toNat).sum)

/-- One step of the checksum generator's accumulator `ACC` (R113). -/
def accStep (acc : Half) (b : Byte) : Half := BitVec.ofNat 16 (acc.toNat + b.toNat)

/-- A frame without its checksum field, followed by that field (R111). -/
def withChecksum (f : List Byte) : List Byte := f ++ bytesLE16 (checksum f)

/-- `checksum_valid(f)`: the computed checksum equals the trailing little-endian field (R112). -/
def checksumValid (f : List Byte) : Bool :=
  checksum (f.take (f.length - 2)) == le16 (frameByte f (f.length - 2)) (frameByte f (f.length - 1))

/-- `acknowledged`: the marker is 0x0030; every other value is not acknowledged (R88). -/
def acknowledged (marker : Half) : Bool := marker == Config.ack

/-- The meaning of a NACK code, `RES_NACK` (30_encoding.md R91). `none` is code 0, "no NACK meaning". -/
inductive NackMeaning where
  | none | invalidIdRange | idNotUsed | idAlreadyUsed | commError | verifyFailed | identifyFailed | databaseFull
  | databaseEmpty | badFinger | enrollFailed | unsupportedCommand | deviceError | invalidParameter
  | fingerNotPressed | unknown
  deriving DecidableEq, Repr

/-- The 4-bit code of a meaning (R91). -/
def nackCode : NackMeaning → BitVec 4
  | .none => 0
  | .invalidIdRange => 1
  | .idNotUsed => 2
  | .idAlreadyUsed => 3
  | .commError => 4
  | .verifyFailed => 5
  | .identifyFailed => 6
  | .databaseFull => 7
  | .databaseEmpty => 8
  | .badFinger => 9
  | .enrollFailed => 10
  | .unsupportedCommand => 11
  | .deviceError => 12
  | .invalidParameter => 13
  | .fingerNotPressed => 14
  | .unknown => 15

/-- `NackMeaning(code)`: the row of R91's table, or UNKNOWN when no row matches (42_correlator.md R159). -/
def nackMeaning (code : Word) : NackMeaning :=
  match code.toNat with
  | 0x1003 => .invalidIdRange
  | 0x1004 => .idNotUsed
  | 0x1005 => .idAlreadyUsed
  | 0x1006 => .commError
  | 0x1007 => .verifyFailed
  | 0x1008 => .identifyFailed
  | 0x1009 => .databaseFull
  | 0x100A => .databaseEmpty
  | 0x100C => .badFinger
  | 0x100D => .enrollFailed
  | 0x100E => .unsupportedCommand
  | 0x100F => .deviceError
  | 0x1011 => .invalidParameter
  | 0x1012 => .fingerNotPressed
  | _ => .unknown

end Sys2Proof.Machine
end

