-- ==== Sys2Proof/Machine/Frames.lean ====
section
/-! DEFINITION. The three frame formats as byte sequences (30_encoding.md R81 to R83), the encoder's two
functions (41_frame_codec.md R120, R121) and the decoder's two (R130, R131). -/

namespace Sys2Proof.Machine

/-- `EncodeCommand(op, p)`, 12 bytes (R120). -/
def encodeCommand (op : Byte) (p : Word) : List Byte :=
  withChecksum ([Config.crMark0, Config.crMark1] ++ bytesLE16 Config.deviceId ++ bytesLE32 p ++ [op, 0x00])

/-- `EncodeData(s)`, `N + 6` bytes (R121). -/
def encodeData (s : List Byte) : List Byte :=
  withChecksum ([Config.dMark0, Config.dMark1] ++ bytesLE16 Config.deviceId ++ s)

/-- The 12 bytes of a Response frame with these fields; the checksum field is as the device sent it (R82). -/
def responseFrame (dev : Half) (param : Word) (marker csum : Half) : List Byte :=
  [Config.crMark0, Config.crMark1] ++ bytesLE16 dev ++ bytesLE32 param ++ bytesLE16 marker ++ bytesLE16 csum

/-- The bytes of a received Data frame with these fields (R83). -/
def dataFrame (dev : Half) (payload : List Byte) (csum : Half) : List Byte :=
  [Config.dMark0, Config.dMark1] ++ bytesLE16 dev ++ payload ++ bytesLE16 csum

/-- What `DecodeResponse` gives (R130). -/
structure DecodedResponse where
  dev : Half
  param : Word
  mark : Half
  ack : Bool
  csumOk : Bool
  deriving DecidableEq, Repr

/-- `DecodeResponse(f)` for a 12-byte frame (R130). -/
def decodeResponse (f : List Byte) : DecodedResponse :=
  let mark := le16 (frameByte f 8) (frameByte f 9)
  { dev := le16 (frameByte f 2) (frameByte f 3)
    param := le32 (frameByte f 4) (frameByte f 5) (frameByte f 6) (frameByte f 7)
    mark := mark
    ack := acknowledged mark
    csumOk := checksumValid f }

/-- What `DecodeData` gives (R131). Its `N` is the payload's length. -/
structure DecodedData where
  dev : Half
  payload : List Byte
  csumOk : Bool
  deriving DecidableEq, Repr

/-- `DecodeData(f)`: strip the 4-byte header and the 2-byte trailing checksum (R131). -/
def decodeData (f : List Byte) : DecodedData :=
  { dev := le16 (frameByte f 2) (frameByte f 3)
    payload := (f.drop 4).take (f.length - 6)
    csumOk := checksumValid f }

end Sys2Proof.Machine
end

