-- ==== Sys2Proof/WellFormed.lean ====
section
/-! DEFINITION. Which instructions the encodings admit. Every field of the request, event and command records
takes every value of its width (30_encoding.md R84, R90, R93); only two rows restrict an operand. -/

namespace Sys2Proof

/-- The row of a Response with another marker excludes the markers of the ACK and NACK rows (30_encoding.md
R88); a Data frame the block sends has at most `P_PBUF_CAP` payload bytes (41_frame_codec.md R121). -/
def Instr.wf : Instr → Bool
  | .openCmd _ | .closeCmd _ | .usbCheck _ | .changeBaudrate _ | .cmosLed _ | .getEnrollCount _
  | .checkEnrolled _ | .enrollStart _ | .enroll1 _ | .enroll2 _ | .enroll3 _ | .isPressFinger _
  | .deleteId _ | .deleteAll _ | .verify _ | .identify _ | .verifyTemplate _ | .identifyTemplate _
  | .captureFinger _ | .makeTemplate _ | .getImage _ | .getRawImage _ | .getTemplate _ | .setTemplate _ => true
  | .responseAck _ _ _ | .responseNack _ _ _ => true
  | .responseOtherMarker _ _ marker _ => marker != Config.ack && marker != Config.nack
  | .dataOut payload => Config.fitsPbuf payload.length
  | .dataIn _ _ _ => true
  | .send _ _ _ | .recv _ _ _ _ | .sendpay _ _ | .negotiate _ | .sessionReset => true
  | .reservedReq5 | .reservedReq6 | .reservedReq7 => true
  | .rxChunk _ | .txDone _ _ | .openDone _ | .closeDone _ | .tpError | .tick => true
  | .reservedEvt6 | .reservedEvt7 => true

end Sys2Proof
end

