-- ==== Sys2Proof/Decode.lean ====
section
/-! DEFINITION. From the bytes of an input record to an instruction, and back. The wire frames are those of
30_encoding.md R81 to R83. The byte image of a host request and of an input event is the model's own (log 3):
one byte holds the 3-bit code of R93 or R94, the fields follow in the order the rule names them, each
multi-byte field little-endian; a request record carries every field, also those its kind does not read. -/

namespace Sys2Proof

open Sys2Proof.Machine

/-- Why a byte string on a port is no record. -/
inductive DecodeError where
  /-- No byte at all. -/
  | emptyRecord
  /-- The first byte is neither a code of the port nor a start marker. -/
  | unknownHeader
  /-- The record has too few or too many bytes for its header. -/
  | recordLength
  /-- A frame whose second marker byte, device-id or reserved byte is not what its row fixes. -/
  | frameHeader
  /-- A Command frame whose opcode R89 does not list (a host sends it with SEND, R90). -/
  | unlistedOpcode
  /-- A Data frame to send whose payload exceeds `P_PBUF_CAP` (R121). -/
  | payloadLength
  /-- A 1-bit field whose byte is neither 0 nor 1. -/
  | bitField
  deriving DecidableEq, Repr

/-- The instruction of a named command with its parameter. -/
def commandInstr (c : Command) (p : Word) : Instr :=
  match c with
  | .openDev => .openCmd p
  | .closeDev => .closeCmd p
  | .usbCheck => .usbCheck p
  | .changeBaudrate => .changeBaudrate p
  | .cmosLed => .cmosLed p
  | .getEnrollCount => .getEnrollCount p
  | .checkEnrolled => .checkEnrolled p
  | .enrollStart => .enrollStart p
  | .enroll1 => .enroll1 p
  | .enroll2 => .enroll2 p
  | .enroll3 => .enroll3 p
  | .isPressFinger => .isPressFinger p
  | .deleteId => .deleteId p
  | .deleteAll => .deleteAll p
  | .verify => .verify p
  | .identify => .identify p
  | .verifyTemplate => .verifyTemplate p
  | .identifyTemplate => .identifyTemplate p
  | .captureFinger => .captureFinger p
  | .makeTemplate => .makeTemplate p
  | .getImage => .getImage p
  | .getRawImage => .getRawImage p
  | .getTemplate => .getTemplate p
  | .setTemplate => .setTemplate p

/-- A Command frame (R81). The row's mask leaves the checksum field open (R97; log 8): the block
computes it. -/
def decodeCommandFrame : List Byte → Except DecodeError Instr
  | [_, m1, d0, d1, p0, p1, p2, p3, op, rsv, _, _] =>
    if m1 = Config.crMark1 ∧ le16 d0 d1 = Config.deviceId ∧ rsv = 0 then
      match commandOf op with
      | some c => .ok (commandInstr c (le32 p0 p1 p2 p3))
      | none => .error .unlistedOpcode
    else .error .frameHeader
  | _ => .error .recordLength

/-- A Data frame to send (R83, R121). Its checksum field is the encoder's (log 8). -/
def decodeDataOut : List Byte → Except DecodeError Instr
  | _ :: m1 :: d0 :: d1 :: rest =>
    if m1 = Config.dMark1 ∧ le16 d0 d1 = Config.deviceId then
      if rest.length < 2 then .error .recordLength
      else if Config.fitsPbuf (rest.length - 2) then .ok (.dataOut (rest.take (rest.length - 2)))
      else .error .payloadLength
    else .error .frameHeader
  | _ => .error .recordLength

/-- A host request of kind `k` with its fields op, param, len, tmo, target (R93). -/
def decodeRequest (k : Byte) : List Byte → Except DecodeError Instr
  | [op, p0, p1, p2, p3, l0, l1, l2, l3, t0, t1, t2, t3, g0, g1, g2, g3] =>
    match k.toNat with
    | 0 => .ok (.send op (le32 p0 p1 p2 p3) (le32 t0 t1 t2 t3))
    | 1 => .ok (.recv op (le32 p0 p1 p2 p3) (le32 l0 l1 l2 l3) (le32 t0 t1 t2 t3))
    | 2 => .ok (.sendpay (le32 l0 l1 l2 l3) (le32 t0 t1 t2 t3))
    | 3 => .ok (.negotiate (le32 g0 g1 g2 g3))
    | 4 => .ok .sessionReset
    | 5 => .ok .reservedReq5
    | 6 => .ok .reservedReq6
    | 7 => .ok .reservedReq7
    | _ => .error .unknownHeader
  | _ => .error .recordLength

/-- A record of the host port. -/
def decodeHost : List Byte → Except DecodeError Instr
  | [] => .error .emptyRecord
  | b :: rest =>
    if b = Config.crMark0 then decodeCommandFrame (b :: rest)
    else if b = Config.dMark0 then decodeDataOut (b :: rest)
    else if b.toNat < 8 then decodeRequest b rest
    else .error .unknownHeader

/-- A Response frame: the marker tells the three rows apart (R82, R88). -/
def decodeResponseFrame : List Byte → Except DecodeError Instr
  | [_, m1, d0, d1, p0, p1, p2, p3, a0, a1, c0, c1] =>
    if m1 = Config.crMark1 then
      if le16 a0 a1 = Config.ack then .ok (.responseAck (le16 d0 d1) (le32 p0 p1 p2 p3) (le16 c0 c1))
      else if le16 a0 a1 = Config.nack then .ok (.responseNack (le16 d0 d1) (le32 p0 p1 p2 p3) (le16 c0 c1))
      else .ok (.responseOtherMarker (le16 d0 d1) (le32 p0 p1 p2 p3) (le16 a0 a1) (le16 c0 c1))
    else .error .frameHeader
  | _ => .error .recordLength

/-- A received Data frame, as long as the record (R83). -/
def decodeDataIn : List Byte → Except DecodeError Instr
  | _ :: m1 :: d0 :: d1 :: rest =>
    if m1 = Config.dMark1 then
      if rest.length < 2 then .error .recordLength
      else .ok (.dataIn (le16 d0 d1) (rest.take (rest.length - 2))
        (le16 (frameByte rest (rest.length - 2)) (frameByte rest (rest.length - 1))))
    else .error .frameHeader
  | _ => .error .recordLength

/-- A 1-bit field held in a byte. -/
def decodeBit (b : Byte) : Except DecodeError Bool :=
  if b = 1 then .ok true else if b = 0 then .ok false else .error .bitField

/-- An input event of code `k` with its fields (R94). The `count` of TX_DONE has four bytes by the model's choice
(log 22). -/
def decodeEvent (k : Byte) (fields : List Byte) : Except DecodeError Instr :=
  match k.toNat, fields with
  | 0, bytes => .ok (.rxChunk bytes)
  | 1, [ok, c0, c1, c2, c3] => (decodeBit ok).map (fun v => .txDone v (le32 c0 c1 c2 c3))
  | 2, [ok] => (decodeBit ok).map .openDone
  | 3, [ok] => (decodeBit ok).map .closeDone
  | 4, [] => .ok .tpError
  | 5, [] => .ok .tick
  | 6, [] => .ok .reservedEvt6
  | 7, [] => .ok .reservedEvt7
  | _, _ => .error .recordLength

/-- A record of the link port. -/
def decodeLink : List Byte → Except DecodeError Instr
  | [] => .error .emptyRecord
  | b :: rest =>
    if b = Config.crMark0 then decodeResponseFrame (b :: rest)
    else if b = Config.dMark0 then decodeDataIn (b :: rest)
    else if b.toNat < 8 then decodeEvent b rest
    else .error .unknownHeader

/-- The instruction of a record, or the reason there is none. -/
def decode (p : Port) (bytes : List Byte) : Except DecodeError Instr :=
  match p with
  | .host => decodeHost bytes
  | .link => decodeLink bytes

/-- The port an instruction's record arrives on (30_encoding.md R80, R93, R94). -/
def portOf : Instr → Port
  | .openCmd _ | .closeCmd _ | .usbCheck _ | .changeBaudrate _ | .cmosLed _ | .getEnrollCount _
  | .checkEnrolled _ | .enrollStart _ | .enroll1 _ | .enroll2 _ | .enroll3 _ | .isPressFinger _
  | .deleteId _ | .deleteAll _ | .verify _ | .identify _ | .verifyTemplate _ | .identifyTemplate _
  | .captureFinger _ | .makeTemplate _ | .getImage _ | .getRawImage _ | .getTemplate _ | .setTemplate _ => .host
  | .responseAck _ _ _ | .responseNack _ _ _ | .responseOtherMarker _ _ _ _ | .dataIn _ _ _ => .link
  | .dataOut _ => .host
  | .send _ _ _ | .recv _ _ _ _ | .sendpay _ _ | .negotiate _ | .sessionReset => .host
  | .reservedReq5 | .reservedReq6 | .reservedReq7 => .host
  | .rxChunk _ | .txDone _ _ | .openDone _ | .closeDone _ | .tpError | .tick => .link
  | .reservedEvt6 | .reservedEvt7 => .link

/-- The record of a host request; fields a kind does not read are sent as 0 (R93). -/
def encodeRequest (k op : Byte) (param len tmo target : Word) : List Byte :=
  [k, op] ++ bytesLE32 param ++ bytesLE32 len ++ bytesLE32 tmo ++ bytesLE32 target

/-- A 1-bit field as a byte. -/
def encodeBit (b : Bool) : Byte := if b then 1 else 0

/-- The record of an instruction. -/
def encode : Instr → List Byte
  | .openCmd p => encodeCommand (opcodeOf .openDev) p
  | .closeCmd p => encodeCommand (opcodeOf .closeDev) p
  | .usbCheck p => encodeCommand (opcodeOf .usbCheck) p
  | .changeBaudrate p => encodeCommand (opcodeOf .changeBaudrate) p
  | .cmosLed p => encodeCommand (opcodeOf .cmosLed) p
  | .getEnrollCount p => encodeCommand (opcodeOf .getEnrollCount) p
  | .checkEnrolled p => encodeCommand (opcodeOf .checkEnrolled) p
  | .enrollStart p => encodeCommand (opcodeOf .enrollStart) p
  | .enroll1 p => encodeCommand (opcodeOf .enroll1) p
  | .enroll2 p => encodeCommand (opcodeOf .enroll2) p
  | .enroll3 p => encodeCommand (opcodeOf .enroll3) p
  | .isPressFinger p => encodeCommand (opcodeOf .isPressFinger) p
  | .deleteId p => encodeCommand (opcodeOf .deleteId) p
  | .deleteAll p => encodeCommand (opcodeOf .deleteAll) p
  | .verify p => encodeCommand (opcodeOf .verify) p
  | .identify p => encodeCommand (opcodeOf .identify) p
  | .verifyTemplate p => encodeCommand (opcodeOf .verifyTemplate) p
  | .identifyTemplate p => encodeCommand (opcodeOf .identifyTemplate) p
  | .captureFinger p => encodeCommand (opcodeOf .captureFinger) p
  | .makeTemplate p => encodeCommand (opcodeOf .makeTemplate) p
  | .getImage p => encodeCommand (opcodeOf .getImage) p
  | .getRawImage p => encodeCommand (opcodeOf .getRawImage) p
  | .getTemplate p => encodeCommand (opcodeOf .getTemplate) p
  | .setTemplate p => encodeCommand (opcodeOf .setTemplate) p
  | .responseAck dev param csum => responseFrame dev param Config.ack csum
  | .responseNack dev param csum => responseFrame dev param Config.nack csum
  | .responseOtherMarker dev param marker csum => responseFrame dev param marker csum
  | .dataOut payload => encodeData payload
  | .dataIn dev payload csum => dataFrame dev payload csum
  | .send op param tmo => encodeRequest 0 op param 0 tmo 0
  | .recv op param len tmo => encodeRequest 1 op param len tmo 0
  | .sendpay len tmo => encodeRequest 2 0 0 len tmo 0
  | .negotiate target => encodeRequest 3 0 0 0 0 target
  | .sessionReset => encodeRequest 4 0 0 0 0 0
  | .reservedReq5 => encodeRequest 5 0 0 0 0 0
  | .reservedReq6 => encodeRequest 6 0 0 0 0 0
  | .reservedReq7 => encodeRequest 7 0 0 0 0 0
  | .rxChunk bytes => 0 :: bytes
  | .txDone ok count => [1, encodeBit ok] ++ bytesLE32 count
  | .openDone ok => [2, encodeBit ok]
  | .closeDone ok => [3, encodeBit ok]
  | .tpError => [4]
  | .tick => [5]
  | .reservedEvt6 => [6]
  | .reservedEvt7 => [7]

/-- The `n` bytes of `w`, most significant first: the opcode table writes a frame as one big-endian number of
its wire bytes (30_encoding.md R97). -/
def tableBytes : Nat → Nat → List Byte
  | 0, _ => []
  | n + 1, w => tableBytes n (w / 256) ++ [BitVec.ofNat 8 w]

/-- The bytes the table's word leaves out are 0: up to 12 for a Command or Response frame, up to the empty
payload's 6 for a Data frame, up to a whole request record for a 3-bit code. -/
def padRecord (bytes : List Byte) : List Byte :=
  let full := if bytes.head? = some Config.crMark0 then 12 else if bytes.head? = some Config.dMark0 then 6 else 18
  bytes ++ List.replicate (full - bytes.length) 0

/-- The port and the record of the opcode table's word `w` of `nbits` bits. A word that a row of the host port
and one of the link port share is read on the host port (log 4). -/
def tableRecord (nbits w : Nat) : Port × List Byte :=
  let bytes := padRecord (tableBytes ((nbits + 7) / 8) w)
  match decode .host bytes with
  | .ok _ => (.host, bytes)
  | .error _ => (.link, bytes)

/-- The instruction the decoder reads from the opcode table's word `w` of `nbits` bits. -/
def decodeTableWord (nbits w : Nat) : Option Instr :=
  match decode (tableRecord nbits w).1 (tableRecord nbits w).2 with
  | .ok i => some i
  | .error _ => none

end Sys2Proof
end

