-- ==== Sys2Proof/Machine/State.lean ====
section
/-! DEFINITION. The machine's state as plain data: every register of 10_state.md R22 to R38 and the two fields of
the model's own, the input port and the output port (log 1, log 2); the reasons a step can stop; the state after
power-on reset (70_reset_and_hazards.md R290). -/

namespace Sys2Proof.Machine

/-- `CS`, 2 bits (10_state.md R24). -/
inductive Cs where
  | idle | waitResp | waitData
  /-- Code 3, never written by a rule. -/
  | reserved
  deriving DecidableEq, Repr

/-- `PEND_KIND`, 2 bits (R25). -/
inductive PendKind where
  | cmd | recv | sendpay
  /-- Code 3, never written by a rule. -/
  | reserved
  deriving DecidableEq, Repr

/-- `PEND_OWNER`, 1 bit (R25): issued by a host request or by the baud negotiator. -/
inductive Owner where
  | host | bn
  deriving DecidableEq, Repr

/-- A timeout category, 2 bits, codes 0 to 3 in this order (60_exceptions.md R262). -/
inductive Tcat where
  | command | bulk | fingerWait | baudAttempt
  deriving DecidableEq, Repr

/-- A status code, 4 bits, codes 0 to 10 in this order; 11 to 15 are never produced (60_exceptions.md R260). -/
inductive Status where
  | ok | timeout | checksumMismatch | duplicateId | deviceNack | transportError | baudExhausted | busy | notReady
  | badRequest | aborted
  deriving DecidableEq, Repr

/-- `NS`, 4 bits, codes 0 to 11 in this order (R29). -/
inductive Ns where
  | untried | preclose | opening | probing | closingFail | changing | settling | closingChg | reopening | locked
  | exhausted | failed
  /-- Codes 12 to 15, never written by a rule. -/
  | reserved (k : Fin 4)
  deriving DecidableEq, Repr

/-- `TP_WAIT`, 2 bits (R33). -/
inductive TpWait where
  | none | open_ | close
  /-- Code 3, never written by a rule. -/
  | reserved
  deriving DecidableEq, Repr

/-- The pending-operation record (R25). -/
structure Pending where
  kind : PendKind
  owner : Owner
  op : Byte
  param : Word
  len : Word
  tcat : Tcat
  ackp : Word
  rcsum : Bool
  deriving DecidableEq, Repr

/-- A result record: `LAST_RESULT` and the record of a `RESULT` output event (R28). -/
structure ResultRecord where
  valid : Bool
  req : BitVec 3
  status : Status
  tcat : Tcat
  nack : NackMeaning
  value : Word
  len : Word
  rcsum : Bool
  dcsum : Bool
  deriving DecidableEq, Repr

/-- The identity registers (R32). -/
structure Identity where
  fwVer : Word
  isoSize : Word
  serial : Vector Byte 16
  valid : Bool
  csum : Bool
  deriving DecidableEq, Repr

/-- The transport mirror `TP_OPEN`, `TP_BAUD`, `TP_WAIT` (R33). -/
structure TpMirror where
  isOpen : Bool
  baud : Word
  wait : TpWait
  deriving DecidableEq, Repr

/-- `PBUF`: the bytes written since power-on, as (address, byte) pairs in rising order. An address that is not
listed has no value (R38). -/
abbrev Memory := List Host.Cell

/-- An output event (30_encoding.md R95). -/
inductive OutEvent where
  | txFrame (bytes : List Byte)
  | rxFlush
  | openTp (baud : Word)
  | closeTp
  | result (r : ResultRecord)
  | terrNotify
  deriving DecidableEq, Repr

/-- What can arrive at the block: a record on one of its two ports, a write of `PBUF` by the host
(20_memory.md R68; log 20), or power-on reset (R290; log 21). -/
inductive PortItem where
  | host (bytes : List Byte)
  | link (bytes : List Byte)
  | pbufWrite (addr : Nat) (bytes : List Byte)
  | powerOn
  deriving DecidableEq, Repr

/-- Why a step stops with a fault. -/
inductive Fault where
  /-- A byte of `PBUF` that nothing has written since power-on was read, by a SENDPAY's snapshot or by the
  identity capture: the spec calls it a model fault (70_reset_and_hazards.md R300; log 13). Safe. -/
  | pbufUnwritten (addr : Nat)
  /-- An access of `PBUF` at or beyond `P_PBUF_CAP`, where no byte exists (20_memory.md R60, R68; log 14).
  `last` is the address after the access. Safe. -/
  | pbufRange (last : Nat)
  /-- `P_BAUD_LIST` was read at an index it does not have; no rule reaches this (10_state.md R30; log 15). Safe. -/
  | baudIndex (i : Nat)
  deriving DecidableEq, Repr

/-- Why a step refuses. -/
inductive Refusal where
  /-- The instruction has no meaning yet. Raised by a refused arm of `exec` only; safe. -/
  | notModelled (mnemonic : String)
  /-- The bytes at the head of a port are no record of that port, so no input event of the block (log 3). Raised
  by the fetch; safe. -/
  | malformedRecord (why : DecodeError)
  deriving DecidableEq, Repr

/-- The whole state. Field groups follow 10_state.md; the names of the registers stand in each comment. -/
structure State where
  /-- `RB`, oldest byte first (R22). -/
  rb : List Byte
  /-- `EDL` (R23). -/
  edl : Word
  /-- `CS` (R24). -/
  cs : Cs
  /-- The pending-operation record (R25). -/
  pend : Pending
  /-- `TXQ` (R26). -/
  txq : BitVec 2
  /-- `TMR` (R27). -/
  tmr : Word
  /-- `TMR_EN` (R27). -/
  tmrEn : Bool
  /-- `LAST_RESULT` (R28). -/
  last : ResultRecord
  /-- `NS` (R29). -/
  ns : Ns
  /-- `NIDX` (R30). -/
  nidx : BitVec 3
  /-- `TARGET` (R31). -/
  target : Word
  /-- `LOCK_BAUD` (R31). -/
  lockBaud : Word
  /-- `CUR_BAUD` (R31). -/
  curBaud : Word
  /-- `FW_VER`, `ISO_SIZE`, `SERIAL`, `IDENT_VALID`, `IDENT_CSUM` (R32). -/
  ident : Identity
  /-- `TP_OPEN`, `TP_BAUD`, `TP_WAIT` (R33). -/
  tp : TpMirror
  /-- `RB_OVF` (R35). -/
  rbOvf : Bool
  /-- `STATE_BAD` (R35). -/
  stateBad : Bool
  /-- `TERR` (R36). -/
  terr : Bool
  /-- `DROP_RESP` (R37). -/
  dropResp : Word
  /-- `DROP_DATA` (R37). -/
  dropData : Word
  /-- `NOISE_DROP` (R37). -/
  noiseDrop : Word
  /-- `PBUF` (R38). -/
  pbuf : Memory
  /-- The model's own: what has arrived and is not yet taken, by instant (log 1). -/
  port : List (List PortItem)
  /-- The model's own: the output events so far, oldest first (log 2). -/
  out : List OutEvent
  deriving DecidableEq, Repr

/-- The pending record with every field 0 (R25). -/
def Pending.zero : Pending :=
  { kind := .cmd, owner := .host, op := 0, param := 0, len := 0, tcat := .command, ackp := 0, rcsum := false }

/-- The result record with every field 0 (R28). -/
def ResultRecord.zero : ResultRecord :=
  { valid := false, req := 0, status := .ok, tcat := .command, nack := .none, value := 0, len := 0,
    rcsum := false, dcsum := false }

/-- The identity registers with every field 0 (R32). -/
def Identity.zero : Identity :=
  { fwVer := 0, isoSize := 0, serial := #v[0, 0, 0, 0, 0, 0, 0, 0, 0, 0, 0, 0, 0, 0, 0, 0], valid := false,
    csum := false }

/-- The state after power-on reset (70_reset_and_hazards.md R290). Nothing has arrived and nothing has been
emitted (log 1, log 2). -/
def State.reset : State :=
  { rb := []
    edl := 0
    cs := .idle
    pend := Pending.zero
    txq := 0
    tmr := 0
    tmrEn := false
    last := ResultRecord.zero
    ns := .untried
    nidx := 0
    target := 0
    lockBaud := 0
    curBaud := 0
    ident := Identity.zero
    tp := { isOpen := false, baud := 0, wait := .none }
    rbOvf := false
    stateBad := false
    terr := false
    dropResp := 0
    dropData := 0
    noiseDrop := 0
    pbuf := []
    port := []
    out := [] }

end Sys2Proof.Machine
end

