-- ==== Sys2Proof/Machine/Codes.lean ====
section
/-! DEFINITION. The numbers the registers' named values stand for (10_state.md R24, R25, R29, R33;
60_exceptions.md R260, R262), and which of them are reserved (R35). -/

namespace Sys2Proof.Machine

/-- The 2-bit code of `CS` (R24). -/
def csCode : Cs → BitVec 2
  | .idle => 0
  | .waitResp => 1
  | .waitData => 2
  | .reserved => 3

/-- The code of `PEND_KIND`; for a correlator operation it equals the request kind (R25, 42_correlator.md R164). -/
def kindCode : PendKind → BitVec 3
  | .cmd => 0
  | .recv => 1
  | .sendpay => 2
  | .reserved => 3

/-- The 1-bit code of `PEND_OWNER` (R25). -/
def ownerCode : Owner → BitVec 1
  | .host => 0
  | .bn => 1

/-- The 2-bit code of a timeout category (R262). -/
def tcatCode : Tcat → BitVec 2
  | .command => 0
  | .bulk => 1
  | .fingerWait => 2
  | .baudAttempt => 3

/-- The 4-bit status code (R260). -/
def statusCode : Status → BitVec 4
  | .ok => 0
  | .timeout => 1
  | .checksumMismatch => 2
  | .duplicateId => 3
  | .deviceNack => 4
  | .transportError => 5
  | .baudExhausted => 6
  | .busy => 7
  | .notReady => 8
  | .badRequest => 9
  | .aborted => 10

/-- The 4-bit code of `NS` (R29). -/
def nsCode : Ns → BitVec 4
  | .untried => 0
  | .preclose => 1
  | .opening => 2
  | .probing => 3
  | .closingFail => 4
  | .changing => 5
  | .settling => 6
  | .closingChg => 7
  | .reopening => 8
  | .locked => 9
  | .exhausted => 10
  | .failed => 11
  | .reserved k => BitVec.ofNat 4 (12 + k.val)

/-- The 2-bit code of `TP_WAIT` (R33). -/
def tpWaitCode : TpWait → BitVec 2
  | .none => 0
  | .open_ => 1
  | .close => 2
  | .reserved => 3

/-- `CS` holds its reserved encoding (R24). -/
def csReserved : Cs → Bool
  | .reserved => true
  | .idle | .waitResp | .waitData => false

/-- `PEND_KIND` holds its reserved encoding (R25). -/
def kindReserved : PendKind → Bool
  | .reserved => true
  | .cmd | .recv | .sendpay => false

/-- `NS` holds a reserved encoding (R29). -/
def nsReserved : Ns → Bool
  | .reserved _ => true
  | .untried | .preclose | .opening | .probing | .closingFail | .changing | .settling | .closingChg | .reopening
  | .locked | .exhausted | .failed => false

/-- `TP_WAIT` holds its reserved encoding (R33). -/
def tpWaitReserved : TpWait → Bool
  | .reserved => true
  | .none | .open_ | .close => false

/-- The states of a negotiation in progress, codes 1 to 8 (R29, R40). -/
def nsInProgress : Ns → Bool
  | .preclose | .opening | .probing | .closingFail | .changing | .settling | .closingChg | .reopening => true
  | .untried | .locked | .exhausted | .failed | .reserved _ => false

end Sys2Proof.Machine
end

