-- ==== Sys2Proof/Machine/Ops.lean ====
section
/-! DEFINITION. The shared operations: access to `PBUF` (20_memory.md R60, R61), output events and results
(42_correlator.md R165), the sticky fault STATE_BAD (60_exceptions.md R272), the common issue step (R154), the
negotiator's operations (44_baud_negotiator.md R231 to R245), the one way an operation ends, with or without an
error (`complete`, 42_correlator.md R164, 60_exceptions.md R267), the refusal of a request (`reject`, R150), and the
binding of received frames (R156 to R162). There is no return from an exception (R267). -/

namespace Sys2Proof.Machine

/-! ## PBUF -/

/-- The form of `PBUF`: addresses strictly rising. No entry can equal what an unlisted address reads as, since an
unlisted address has no value (log 13). -/
abbrev Memory.wf (m : Memory) : Prop := m.Pairwise (fun a b => a.1 < b.1)

/-- The byte at an address, if something has written it since power-on (10_state.md R38). -/
def pbufGet : Memory → Nat → Option Byte
  | [], _ => none
  | (k, b) :: rest, a => if k = a then some b else pbufGet rest a

/-- One byte written. -/
def pbufSet : Memory → Nat → Byte → Memory
  | [], a, b => [(a, b)]
  | (k, c) :: rest, a, b =>
    if a < k then (a, b) :: (k, c) :: rest
    else if a = k then (a, b) :: rest
    else (k, c) :: pbufSet rest a b

/-- Bytes written at rising addresses from `a`. -/
def pbufSetBytes : Memory → Nat → List Byte → Memory
  | m, _, [] => m
  | m, a, b :: bs => pbufSetBytes (pbufSet m a b) (a + 1) bs

/-- `n` bytes read from `a`; a byte that nothing has written is a fault (70_reset_and_hazards.md R300). -/
def pbufGetBytes : Memory → Nat → Nat → Except Fault (List Byte)
  | _, _, 0 => .ok []
  | m, a, n + 1 =>
    match pbufGet m a with
    | none => .error (.pbufUnwritten a)
    | some b =>
      match pbufGetBytes m (a + 1) n with
      | .error e => .error e
      | .ok bs => .ok (b :: bs)

/-- `MemRead(PBUF, a, n)` (00_scope.md R14), within `[0, P_PBUF_CAP)` (20_memory.md R68). -/
def memRead (m : Memory) (a n : Nat) : Except Fault (List Byte) :=
  if Config.fitsPbuf (a + n) then pbufGetBytes m a n else .error (.pbufRange (a + n))

/-- `MemWrite(PBUF, a, n, s)` with `n` the length of `s` (R14), within `[0, P_PBUF_CAP)` (R68). -/
def memWrite (m : Memory) (a : Nat) (s : List Byte) : Except Fault Memory :=
  if Config.fitsPbuf (a + s.length) then .ok (pbufSetBytes m a s) else .error (.pbufRange (a + s.length))

/-! ## Sequencing, output events, sticky faults -/

/-- One part of a step, then the next, unless the first stopped. -/
def andThen (r : Except Fault State) (f : State → Except Fault State) : Except Fault State :=
  match r with
  | .ok s => f s
  | .error e => .error e

/-- The outcome of an instruction from what its operations answer. -/
def outcomeOf (r : Except Fault State) : Host.Outcome State Fault Refusal :=
  match r with
  | .ok s => .next s
  | .error e => .fault e

/-- `emit E`: the event leaves by the output port, after those before it (00_scope.md R14, 20_memory.md R69). -/
def emit (e : OutEvent) (s : State) : State := { s with out := s.out ++ [e] }

/-- `fault STATE_BAD` when a register that a rule reads holds a reserved encoding; the rule then goes on
(60_exceptions.md R272; log 16). -/
def note (reserved : Bool) (s : State) : State := { s with stateBad := s.stateBad || reserved }

/-- A rule reads `CS`. -/
def noteCs (s : State) : State := note (csReserved s.cs) s
/-- A rule reads `NS`. -/
def noteNs (s : State) : State := note (nsReserved s.ns) s
/-- A rule reads `PEND_KIND`. -/
def noteKind (s : State) : State := note (kindReserved s.pend.kind) s
/-- A rule reads `TP_WAIT`. -/
def noteTpWait (s : State) : State := note (tpWaitReserved s.tp.wait) s

/-! ## Results -/

/-- `Ok{...}` and `Err(E, ...)` of the correlator's rules; the fields a rule does not give are 0 (R165). -/
structure OpResult where
  status : Status
  tcat : Tcat := .command
  nack : NackMeaning := .none
  value : Word := 0
  len : Word := 0
  rcsum : Bool := false
  dcsum : Bool := false
  deriving DecidableEq, Repr

/-- The result record of an answer to the request kind `req` (R165). -/
def resultOf (req : BitVec 3) (r : OpResult) : ResultRecord :=
  { valid := true, req := req, status := r.status, tcat := r.tcat, nack := r.nack, value := r.value, len := r.len,
    rcsum := r.rcsum, dcsum := r.dcsum }

/-- `EmitResult(kind, res)`: the record goes to `LAST_RESULT` and out as a `RESULT` event (R165). -/
def emitResult (req : BitVec 3) (r : OpResult) (s : State) : State :=
  { s with last := resultOf req r, out := s.out ++ [.result (resultOf req r)] }

/-- `raise-reject E`: a request refused with no other effect (R150, 60_exceptions.md R267). -/
def reject (req : BitVec 3) (e : Status) (s : State) : State := emitResult req { status := e } s

/-- The request-kind code of NEGOTIATE (30_encoding.md R93). -/
def reqNegotiate : BitVec 3 := 3
/-- The request-kind code of SESSION_RESET (R93). -/
def reqSessionReset : BitVec 3 := 4

/-! ## Derived predicates (10_state.md R40) -/

/-- `bnBusy`: a negotiation is in progress. -/
def bnBusy (s : State) : Bool := nsInProgress s.ns

/-- `ready`: the link is negotiated and open. -/
def ready (s : State) : Bool := decide (s.ns = .locked) && s.tp.isOpen

/-- The busy test of 42_correlator.md R150: an operation outstanding, a write unanswered, or a negotiation in
progress. -/
def corrBlocked (s : State) : Bool := decide (s.cs ≠ .idle) || decide (s.txq ≠ 0) || bnBusy s

/-! ## Issue (42_correlator.md R154) -/

/-- `Issue(...)`: `p` is the new pending record, `t` the duration, `frame` the frame to write. The
register arithmetic here and in the events wraps at the register's width (log 19). -/
def issue (p : Pending) (t : Word) (frame : List Byte) (s : State) : State :=
  { s with
    pend := p
    cs := .waitResp
    out := s.out ++ [.rxFlush, .txFrame frame]
    txq := s.txq + 1
    tmr := t
    tmrEn := true }

/-- The pending record of an issue; `PEND_ACKP` and `PEND_RCSUM` start at 0 (R154). -/
def pendingOf (kind : PendKind) (owner : Owner) (op : Byte) (param len : Word) (tcat : Tcat) : Pending :=
  { kind := kind, owner := owner, op := op, param := param, len := len, tcat := tcat, ackp := 0, rcsum := false }

/-- The total length `N + 6` of a Data frame of `N` payload bytes, as `EDL` holds it (10_state.md R23). -/
def edlOf (len : Word) : Word := BitVec.ofNat 32 (len.toNat + Config.dOvh)

/-! ## The negotiator's operations (44_baud_negotiator.md) -/

/-- `ResetRB()` (41_frame_codec.md R135). -/
def resetRb (s : State) : State := { s with rb := [] }

/-- `emit OPEN_TP(b)` with the transport mirror and `RB` as R232 and R243 leave them, entering state `n`. -/
def openTransport (b : Word) (n : Ns) (s : State) : State :=
  resetRb { emit (.openTp b) s with tp := { s.tp with baud := b, wait := .open_ }, ns := n }

/-- `emit CLOSE_TP`, entering state `n` (R231, R236, R242). -/
def closeTransport (n : Ns) (s : State) : State :=
  { emit .closeTp s with tp := { s.tp with wait := .close }, ns := n }

/-- `P_BAUD_LIST[NIDX]` (R232; log 15). -/
def candidate (s : State) : Except Fault Word :=
  match Config.baudList[s.nidx.toNat]? with
  | some b => .ok b
  | none => .error (.baudIndex s.nidx.toNat)

/-- `OpenAttempt()` (R232). -/
def openAttempt (s : State) : Except Fault State :=
  match candidate s with
  | .ok b => .ok (openTransport b .opening s)
  | .error e => .error e

/-- `NextCandidate()` (R237). -/
def nextCandidate (s : State) : Except Fault State :=
  if s.nidx + 1 = Config.nAttempt then
    .ok (emitResult reqNegotiate { status := .baudExhausted } { s with nidx := s.nidx + 1, ns := .exhausted })
  else openAttempt { s with nidx := s.nidx + 1 }

/-- The OPEN probe: a negotiator-owned receive of the identity packet, with the parameters `P_OPEN_PARAM` and
`P_IDENT_LEN` (R233, 00_scope.md R10). -/
def startProbe (s : State) : State :=
  { issue (pendingOf .recv .bn (opcodeOf .openDev) Config.openParam Config.identLen .baudAttempt) Config.tAttempt
      (encodeCommand (opcodeOf .openDev) Config.openParam) { s with edl := edlOf Config.identLen } with
    ns := .probing }

/-- The identity registers from the first 24 bytes of the identity payload (R238; log 11). -/
def identityOf (b : List Byte) (dcsum : Bool) : Identity :=
  { fwVer := le32 (frameByte b 0) (frameByte b 1) (frameByte b 2) (frameByte b 3)
    isoSize := le32 (frameByte b 4) (frameByte b 5) (frameByte b 6) (frameByte b 7)
    serial := #v[frameByte b 8, frameByte b 9, frameByte b 10, frameByte b 11, frameByte b 12, frameByte b 13,
      frameByte b 14, frameByte b 15, frameByte b 16, frameByte b 17, frameByte b 18, frameByte b 19,
      frameByte b 20, frameByte b 21, frameByte b 22, frameByte b 23]
    valid := true
    csum := dcsum }

/-- `CaptureIdentity(dcsum)`: it reads `PBUF[0..24)` (R238). -/
def captureIdentity (dcsum : Bool) (s : State) : Except Fault State :=
  match memRead s.pbuf 0 24 with
  | .ok b => .ok { s with ident := identityOf b dcsum }
  | .error e => .error e

/-- Lock without change (R239), and the end of the change-baud sequence (R244): the rate now in use is `b`. -/
def lockAt (b : Word) (s : State) : State :=
  emitResult reqNegotiate { status := .ok, value := b } { s with curBaud := b, ns := .locked }

/-- Start of the change-baud sequence (R240). -/
def startChange (s : State) : State :=
  { issue (pendingOf .cmd .bn (opcodeOf .changeBaudrate) s.target 0 .command) Config.tCmd
      (encodeCommand (opcodeOf .changeBaudrate) s.target) s with
    ns := .changing }

/-- The probe succeeded (R235): lock, or change the rate. -/
def probeSucceeded (dcsum : Bool) (s : State) : Except Fault State :=
  andThen (captureIdentity dcsum s) (fun s =>
    match candidate s with
    | .error e => .error e
    | .ok b =>
      if b = s.target then .ok (lockAt b { s with lockBaud := b }) else .ok (startChange { s with lockBaud := b }))

/-- The settle delay starts (R241). -/
def startSettle (s : State) : State := { s with ns := .settling, tmr := Config.tSettle, tmrEn := true }

/-- The negotiation fails after locking with the error of the operation that failed (R245). -/
def negotiationFailed (r : OpResult) (s : State) : State := emitResult reqNegotiate r { s with ns := .failed }

/-- `BnOpDone(res)`: the outcome of a negotiator-owned operation (R235, R236, R241, R245). In every other `NS` no
rule gives it an effect (60_exceptions.md R264; log 17). -/
def bnOpDone (r : OpResult) (s : State) : Except Fault State :=
  match s.ns with
  | .probing => if r.status = .ok then probeSucceeded r.dcsum s else .ok (closeTransport .closingFail s)
  | .changing => if r.status = .ok then .ok (startSettle s) else .ok (negotiationFailed r s)
  | .untried | .preclose | .opening | .closingFail | .settling | .closingChg | .reopening | .locked | .exhausted
  | .failed | .reserved _ => .ok s

/-! ## Completion (42_correlator.md R164) -/

/-- `Complete(res)`: the one way an outstanding operation ends. With an error status it is the block's exception
entry (60_exceptions.md R267): the listener is deregistered, the timer disarmed, and the result is recorded and
emitted, or handed to the negotiator. -/
def complete (r : OpResult) (s : State) : Except Fault State :=
  match s.pend.owner with
  | .host => .ok (emitResult (kindCode s.pend.kind) r (noteKind { s with cs := .idle, tmrEn := false }))
  | .bn => bnOpDone r (noteNs { s with cs := .idle, tmrEn := false })

/-! ## Binding received frames (42_correlator.md R156 to R162) -/

/-- What a Response that is not acknowledged means (R158). -/
def nackResult (d : DecodedResponse) : OpResult :=
  if d.param < Config.dupLimit then { status := .duplicateId, value := d.param, rcsum := d.csumOk }
  else { status := .deviceNack, value := d.param, nack := nackMeaning d.param, rcsum := d.csumOk }

/-- `DeliverResponse(d)` (R156 to R158, R160). -/
def deliverResponse (d : DecodedResponse) (s : State) : Except Fault State :=
  if s.cs ≠ .waitResp then .ok { noteCs s with dropResp := s.dropResp + 1 }
  else if d.ack = false then complete (nackResult d) s
  else if s.pend.kind = .recv then
    .ok { s with cs := .waitData, pend := { s.pend with ackp := d.param, rcsum := d.csumOk } }
  else complete { status := .ok, value := d.param, rcsum := d.csumOk } (noteKind s)

/-- `DeliverData(d)` (R161, R162). -/
def deliverData (d : DecodedData) (s : State) : Except Fault State :=
  if s.cs ≠ .waitData then .ok { noteCs s with dropData := s.dropData + 1 }
  else
    match memWrite s.pbuf 0 d.payload with
    | .error e => .error e
    | .ok m =>
      complete { status := .ok, value := s.pend.ackp, len := BitVec.ofNat 32 d.payload.length,
                 rcsum := s.pend.rcsum, dcsum := d.csumOk } { s with pbuf := m }

end Sys2Proof.Machine
end

