-- ==== Sys2Proof/Machine/Requests.lean ====
section
/-! DEFINITION. The host requests (30_encoding.md R93): acceptance and issue of the correlator's three
(42_correlator.md R150 to R153), NEGOTIATE (44_baud_negotiator.md R230, R231), SESSION_RESET
(70_reset_and_hazards.md R291) and the reserved kinds. -/

namespace Sys2Proof.Machine

/-- R150's checks in their order: `bad` is the length and timeout check of the kind, `go` the issue. -/
def acceptRequest (req : BitVec 3) (bad : Bool) (go : State → Except Fault State) (s : State) : Except Fault State :=
  let s := noteNs (noteCs s)
  if corrBlocked s then .ok (reject req .busy s)
  else if !ready s then .ok (reject req .notReady s)
  else if bad then .ok (reject req .badRequest s)
  else go s

/-- A duration of 0 selects the kind's default (R93). -/
def orDefault (tmo dflt : Word) : Word := if tmo = 0 then dflt else tmo

/-- R151's issue. -/
def issueSend (op : Byte) (param tmo : Word) (s : State) : State :=
  issue (pendingOf .cmd .host op param 0 .command) (orDefault tmo Config.tCmd) (encodeCommand op param) s

/-- `SEND` (R150, R151). -/
def requestSend (op : Byte) (param tmo : Word) (s : State) : Except Fault State :=
  acceptRequest 0 false (fun s => .ok (issueSend op param tmo s)) s

/-- R152's issue; `EDL` is set before the command is sent. -/
def issueRecv (op : Byte) (param len tmo : Word) (s : State) : State :=
  issue (pendingOf .recv .host op param len .bulk) tmo (encodeCommand op param) { s with edl := edlOf len }

/-- The length and timeout check of a receive (R150). -/
def recvBad (len tmo : Word) : Bool :=
  decide (tmo = 0) || !Config.fitsPbuf len.toNat || !Config.fitsRbuf (len.toNat + Config.dOvh)

/-- `RECV` (R150, R152). -/
def requestRecv (op : Byte) (param len tmo : Word) (s : State) : Except Fault State :=
  acceptRequest 1 (recvBad len tmo) (fun s => .ok (issueRecv op param len tmo s)) s

/-- R153's issue of the payload `payload`, a snapshot of `PBUF`. -/
def issueSendpay (len tmo : Word) (payload : List Byte) (s : State) : State :=
  issue (pendingOf .sendpay .host 0 0 len .bulk) (orDefault tmo Config.tSendpay) (encodeData payload) s

/-- The length check of a payload send (R150). -/
def sendpayBad (len : Word) : Bool := !Config.fitsPbuf len.toNat

/-- `SENDPAY` (R150, R153). -/
def requestSendpay (len tmo : Word) (s : State) : Except Fault State :=
  acceptRequest 2 (sendpayBad len)
    (fun s =>
      match memRead s.pbuf 0 len.toNat with
      | .error e => .error e
      | .ok payload => .ok (issueSendpay len tmo payload s)) s

/-- Start of a negotiation (R231). -/
def startNegotiation (target : Word) (s : State) : Except Fault State :=
  let s := { s with target := target, nidx := 0, ident := { s.ident with valid := false } }
  if s.tp.isOpen then .ok (closeTransport .preclose s) else openAttempt s

/-- `NEGOTIATE` (R230, R231). -/
def requestNegotiate (target : Word) (s : State) : Except Fault State :=
  let s := noteTpWait (noteNs (noteCs s))
  if corrBlocked s || decide (s.tp.wait ≠ .none) then .ok (reject reqNegotiate .busy s)
  else startNegotiation target s

/-- A SESSION_RESET's report of the operation it ends (R291, 60_exceptions.md R274). -/
def abortOperation (s : State) : State :=
  if decide (s.cs ≠ .idle) && decide (s.pend.owner = .host) then
    emitResult (kindCode s.pend.kind) { status := .aborted } (noteKind s)
  else s

/-- A SESSION_RESET's report of the negotiation it ends (R291, R274). -/
def abortNegotiation (s : State) : State :=
  if bnBusy s then emitResult reqNegotiate { status := .aborted } s else s

/-- A SESSION_RESET closes an open transport that has no request outstanding (R291). -/
def resetTransport (s : State) : State :=
  if s.tp.isOpen && decide (s.tp.wait = .none) then closeTransport s.ns s else s

/-- R291's assignment: every state at its reset value but `TXQ`, the fault bits, `PBUF` and the transport mirror
(and the model's two ports). -/
def assignReset (s : State) : State :=
  { State.reset with
    txq := s.txq
    rbOvf := s.rbOvf
    stateBad := s.stateBad
    pbuf := s.pbuf
    tp := s.tp
    port := s.port
    out := s.out }

/-- `SESSION_RESET` (R291). -/
def requestReset (s : State) : State :=
  emitResult reqSessionReset { status := .ok }
    (assignReset (resetTransport (abortNegotiation (abortOperation (noteTpWait (noteNs (noteCs s)))))))

/-! ## The meanings -/

/-- SEND (R151). -/
def execSend (op : Byte) (param tmo : Word) (s : State) : Host.Outcome State Fault Refusal :=
  outcomeOf (requestSend op param tmo s)

/-- RECV (R152). -/
def execRecv (op : Byte) (param len tmo : Word) (s : State) : Host.Outcome State Fault Refusal :=
  outcomeOf (requestRecv op param len tmo s)

/-- SENDPAY (R153). -/
def execSendpay (len tmo : Word) (s : State) : Host.Outcome State Fault Refusal :=
  outcomeOf (requestSendpay len tmo s)

/-- NEGOTIATE (R230). -/
def execNegotiate (target : Word) (s : State) : Host.Outcome State Fault Refusal :=
  outcomeOf (requestNegotiate target s)

/-- SESSION_RESET (R291). -/
def execSessionReset (s : State) : Host.Outcome State Fault Refusal := .next (requestReset s)

/-- Reserved request kind 5: BAD_REQUEST (R150). -/
def execReservedReq5 (s : State) : Host.Outcome State Fault Refusal := .next (reject 5 .badRequest s)

/-- Reserved request kind 6: BAD_REQUEST (R150). -/
def execReservedReq6 (s : State) : Host.Outcome State Fault Refusal := .next (reject 6 .badRequest s)

/-- Reserved request kind 7: BAD_REQUEST (R150). -/
def execReservedReq7 (s : State) : Host.Outcome State Fault Refusal := .next (reject 7 .badRequest s)

end Sys2Proof.Machine
end

