-- ==== Sys2Proof/Machine/Commands.lean ====
section
/-! DEFINITION. The 24 wire commands (43_commands.md R190 to R213). For the block a command is a Command frame
and a correlator request; what differs is the host sequence. As an instruction, a command is the FIRST request of its
host sequence, with the payload length and the timeout of R214 (log 5). -/

namespace Sys2Proof.Machine

/-- The correlator request that begins a command's host sequence (R214). -/
inductive Profile where
  /-- A `SEND` with the default timeout. -/
  | sendCmd
  /-- A `RECV` of a payload of `len` bytes within `tmo` ticks. -/
  | recvData (len tmo : Word)
  deriving DecidableEq, Repr

/-- R214's table. OPEN and CHANGE_BAUDRATE are there the negotiator's; a host that sends one itself uses a `SEND`
(R190, R193; log 5). -/
def profileOf : Command → Profile
  | .makeTemplate | .getTemplate => .recvData Config.lenTemplate Config.tTemplate
  | .getImage => .recvData Config.lenImage Config.tImage
  | .getRawImage => .recvData Config.lenRawImage Config.tImage
  | .openDev | .closeDev | .usbCheck | .changeBaudrate | .cmosLed | .getEnrollCount | .checkEnrolled | .enrollStart
  | .enroll1 | .enroll2 | .enroll3 | .isPressFinger | .deleteId | .deleteAll | .verify | .identify | .verifyTemplate
  | .identifyTemplate | .captureFinger | .setTemplate => .sendCmd

/-- The host issues a named command with a parameter. -/
def requestCommand (c : Command) (param : Word) (s : State) : Except Fault State :=
  match profileOf c with
  | .sendCmd => requestSend (opcodeOf c) param 0 s
  | .recvData len tmo => requestRecv (opcodeOf c) param len tmo s

/-! ## The meanings -/

/-- OPEN (R190); the negotiator's own probe is `startProbe`. -/
def execOpenCmd (param : Word) (s : State) : Host.Outcome State Fault Refusal :=
  outcomeOf (requestCommand .openDev param s)

/-- CLOSE (R191); the block does not close the transport. -/
def execCloseCmd (param : Word) (s : State) : Host.Outcome State Fault Refusal :=
  outcomeOf (requestCommand .closeDev param s)

/-- USB_CHECK (R192). -/
def execUsbCheck (param : Word) (s : State) : Host.Outcome State Fault Refusal :=
  outcomeOf (requestCommand .usbCheck param s)

/-- CHANGE_BAUDRATE (R193); the block does not follow the link's rate (R298). -/
def execChangeBaudrate (param : Word) (s : State) : Host.Outcome State Fault Refusal :=
  outcomeOf (requestCommand .changeBaudrate param s)

/-- CMOS_LED (R194). -/
def execCmosLed (param : Word) (s : State) : Host.Outcome State Fault Refusal :=
  outcomeOf (requestCommand .cmosLed param s)

/-- GET_ENROLL_COUNT (R195). -/
def execGetEnrollCount (param : Word) (s : State) : Host.Outcome State Fault Refusal :=
  outcomeOf (requestCommand .getEnrollCount param s)

/-- CHECK_ENROLLED (R196). -/
def execCheckEnrolled (param : Word) (s : State) : Host.Outcome State Fault Refusal :=
  outcomeOf (requestCommand .checkEnrolled param s)

/-- ENROLL_START (R197). -/
def execEnrollStart (param : Word) (s : State) : Host.Outcome State Fault Refusal :=
  outcomeOf (requestCommand .enrollStart param s)

/-- ENROLL1 (R198). -/
def execEnroll1 (param : Word) (s : State) : Host.Outcome State Fault Refusal :=
  outcomeOf (requestCommand .enroll1 param s)

/-- ENROLL2 (R199). -/
def execEnroll2 (param : Word) (s : State) : Host.Outcome State Fault Refusal :=
  outcomeOf (requestCommand .enroll2 param s)

/-- ENROLL3 (R200). -/
def execEnroll3 (param : Word) (s : State) : Host.Outcome State Fault Refusal :=
  outcomeOf (requestCommand .enroll3 param s)

/-- IS_PRESS_FINGER (R201). -/
def execIsPressFinger (param : Word) (s : State) : Host.Outcome State Fault Refusal :=
  outcomeOf (requestCommand .isPressFinger param s)

/-- DELETE_ID (R202). -/
def execDeleteId (param : Word) (s : State) : Host.Outcome State Fault Refusal :=
  outcomeOf (requestCommand .deleteId param s)

/-- DELETE_ALL (R203). -/
def execDeleteAll (param : Word) (s : State) : Host.Outcome State Fault Refusal :=
  outcomeOf (requestCommand .deleteAll param s)

/-- VERIFY (R204). -/
def execVerify (param : Word) (s : State) : Host.Outcome State Fault Refusal :=
  outcomeOf (requestCommand .verify param s)

/-- IDENTIFY (R205). -/
def execIdentify (param : Word) (s : State) : Host.Outcome State Fault Refusal :=
  outcomeOf (requestCommand .identify param s)

/-- VERIFY_TEMPLATE (R206); the host sends the payload with a SENDPAY of its own after success (R169). -/
def execVerifyTemplate (param : Word) (s : State) : Host.Outcome State Fault Refusal :=
  outcomeOf (requestCommand .verifyTemplate param s)

/-- IDENTIFY_TEMPLATE (R207); the host sends the payload with a SENDPAY of its own after success (R169). -/
def execIdentifyTemplate (param : Word) (s : State) : Host.Outcome State Fault Refusal :=
  outcomeOf (requestCommand .identifyTemplate param s)

/-- CAPTURE_FINGER (R208). -/
def execCaptureFinger (param : Word) (s : State) : Host.Outcome State Fault Refusal :=
  outcomeOf (requestCommand .captureFinger param s)

/-- MAKE_TEMPLATE (R209). -/
def execMakeTemplate (param : Word) (s : State) : Host.Outcome State Fault Refusal :=
  outcomeOf (requestCommand .makeTemplate param s)

/-- GET_IMAGE (R210). -/
def execGetImage (param : Word) (s : State) : Host.Outcome State Fault Refusal :=
  outcomeOf (requestCommand .getImage param s)

/-- GET_RAW_IMAGE (R211). -/
def execGetRawImage (param : Word) (s : State) : Host.Outcome State Fault Refusal :=
  outcomeOf (requestCommand .getRawImage param s)

/-- GET_TEMPLATE (R212). -/
def execGetTemplate (param : Word) (s : State) : Host.Outcome State Fault Refusal :=
  outcomeOf (requestCommand .getTemplate param s)

/-- SET_TEMPLATE (R213); the host sends the payload with a SENDPAY of its own after success (R169). -/
def execSetTemplate (param : Word) (s : State) : Host.Outcome State Fault Refusal :=
  outcomeOf (requestCommand .setTemplate param s)

end Sys2Proof.Machine
end

