-- ==== Sys2Proof/Machine/Codec.lean ====
section
/-! DEFINITION. The receive side of the frame codec (41_frame_codec.md R122 to R128): delimiting Response and Data
frames in `RB`, the two noise policies, and the byte-arrival step. -/

namespace Sys2Proof.Machine

/-- The sequence starts with the marker `a`, `b`. -/
def startsWith (a b : Byte) : List Byte → Bool
  | x :: y :: _ => x == a && y == b
  | _ => false

/-- `RespReady()` (R123). -/
def respReady (rb : List Byte) : Bool :=
  decide (Config.crLen ≤ rb.length) && startsWith Config.crMark0 Config.crMark1 rb

/-- `DataReady()` (R124). -/
def dataReady (edl : Word) (rb : List Byte) : Bool :=
  decide (Config.dOvh ≤ edl.toNat) && decide (edl.toNat ≤ rb.length)
    && startsWith Config.dMark0 Config.dMark1 rb

/-- `HeadMayStartFrame()` for a non-empty sequence (R127). -/
def headMayStart (edl : Word) : List Byte → Bool
  | [] => false
  | [a] => a == Config.crMark0 || (a == Config.dMark0 && decide (Config.dOvh ≤ edl.toNat))
  | a :: b :: _ =>
    (a == Config.crMark0 && b == Config.crMark1)
      || (a == Config.dMark0 && decide (Config.dOvh ≤ edl.toNat) && b == Config.dMark1)

/-- How many head bytes `Resync()`'s loop drops (R127). -/
def noiseLength (edl : Word) : List Byte → Nat
  | [] => 0
  | a :: rest => if headMayStart edl (a :: rest) then 0 else noiseLength edl rest + 1

/-- The effect of the noise policy before an extraction test: RETAIN keeps every byte (R126), RESYNC drops the head
bytes that can begin no frame and counts them (R127). -/
def applyPolicy (p : NoisePolicy) (s : State) : State :=
  let n := noiseLength s.edl s.rb
  match n with
  | 0 => s
  | k + 1 =>
    match p with
    | .retain => s
    | .resync => { s with rb := s.rb.drop (k + 1), noiseDrop := s.noiseDrop + BitVec.ofNat 32 (k + 1) }

/-- `ExtractResp()` (R123). -/
def extractResp (s : State) : Except Fault State :=
  deliverResponse (decodeResponse (s.rb.take Config.crLen)) { s with rb := s.rb.drop Config.crLen }

/-- `ExtractData()` (R124). -/
def extractData (s : State) : Except Fault State :=
  deliverData (decodeData (s.rb.take s.edl.toNat)) { s with rb := s.rb.drop s.edl.toNat }

/-- `ExtractAll()`'s loop (R125). `fuel` bounds the frames; each takes at least 6 bytes of `RB`, so its length is
enough. -/
def extractLoop (p : NoisePolicy) : Nat → State → Except Fault State
  | 0, s => .ok s
  | fuel + 1, s =>
    let s := applyPolicy p s
    if respReady s.rb then andThen (extractResp s) (extractLoop p fuel)
    else if dataReady s.edl s.rb then andThen (extractData s) (extractLoop p fuel)
    else .ok s

/-- `ExtractAll()` (R125) under the implementation's noise policy. -/
def extractAll (s : State) : Except Fault State := extractLoop Config.noisePolicy s.rb.length s

/-- One received byte: stored, or lost with fault RB_OVF when `RB` is full (R122, R128). -/
def storeByte (b : Byte) (s : State) : State :=
  if Config.rbufFull s.rb.length then { s with rbOvf := true } else { s with rb := s.rb ++ [b] }

/-- `RX_CHUNK(bytes)`: the bytes in arrival order, each followed by `ExtractAll()` (R122). -/
def feed : List Byte → State → Except Fault State
  | [], s => .ok s
  | b :: bs, s => andThen (extractAll (storeByte b s)) (feed bs)

end Sys2Proof.Machine
end

