-- ==== Sys2Proof/Machine/Events.lean ====
section
/-! DEFINITION. The input events (30_encoding.md R94): byte arrival (41_frame_codec.md R122), write completion
(42_correlator.md R155), transport answers (44_baud_negotiator.md R249), asynchronous transport error
(60_exceptions.md R273), the time base (42_correlator.md R163) and the reserved codes (60_exceptions.md R264). -/

namespace Sys2Proof.Machine

/-- `TxLen()`: the bytes of the newest frame written (R155). -/
def txLen (s : State) : Nat :=
  if s.pend.kind = .sendpay then s.pend.len.toNat + Config.dOvh else Config.crLen

/-- `TX_DONE(ok, count)` (R155); the width of `count` is the model's choice (log 22). -/
def onTxDone (ok : Bool) (count : Word) (s : State) : Except Fault State :=
  if s.txq = 0 then .ok s
  else if s.txq - 1 ≠ 0 then .ok { s with txq := s.txq - 1 }
  else if s.cs = .idle then .ok { s with txq := s.txq - 1 }
  else
    let t := noteKind (noteCs { s with txq := s.txq - 1 })
    if ok = false ∨ count.toNat ≠ txLen s then complete { status := .transportError } t else .ok t

/-- `OPEN_DONE(ok)` in the state the mirror update leaves (R249, then R233, R234, R244, R245). -/
def afterOpen (ok : Bool) (s : State) : Except Fault State :=
  match s.ns with
  | .opening => if ok then .ok (startProbe s) else nextCandidate s
  | .reopening =>
    if ok then .ok (lockAt s.target s) else .ok (negotiationFailed { status := .transportError } s)
  | .untried | .preclose | .probing | .closingFail | .changing | .settling | .closingChg | .locked | .exhausted
  | .failed | .reserved _ => .ok s

/-- `OPEN_DONE(ok)` (R249). -/
def onOpenDone (ok : Bool) (s : State) : Except Fault State :=
  if s.tp.wait ≠ .open_ then .ok (noteTpWait s)
  else afterOpen ok (noteNs { s with tp := { s.tp with wait := .none, isOpen := ok } })

/-- `CLOSE_DONE` in the state the mirror update leaves (R249, then R248, R237, R243). -/
def afterClose (s : State) : Except Fault State :=
  match s.ns with
  | .preclose => openAttempt s
  | .closingFail => nextCandidate s
  | .closingChg => .ok (openTransport s.target .reopening s)
  | .untried | .opening | .probing | .changing | .settling | .reopening | .locked | .exhausted | .failed
  | .reserved _ => .ok s

/-- `CLOSE_DONE(ok)` for either value of `ok` (R249). -/
def onCloseDone (s : State) : Except Fault State :=
  if s.tp.wait ≠ .close then .ok (noteTpWait s)
  else afterClose (noteNs { s with tp := { s.tp with wait := .none, isOpen := false }, txq := 0 })

/-- `TP_ERROR` (R273, R246). -/
def onTpError (s : State) : Except Fault State :=
  if s.ns = .probing then complete { status := .transportError } s
  else .ok (emit .terrNotify { noteNs s with terr := true })

/-- The timer expires (R163): the operation times out, or the settle delay ends (R242). -/
def onExpiry (s : State) : Except Fault State :=
  if s.cs ≠ .idle then
    complete { status := .timeout, tcat := s.pend.tcat, rcsum := s.pend.rcsum } (noteCs s)
  else if s.ns = .settling then .ok (closeTransport .closingChg s)
  else .ok (noteNs s)

/-- `TICK` (R163). -/
def onTick (s : State) : Except Fault State :=
  if s.tmrEn = false then .ok s
  else if s.tmr - 1 ≠ 0 then .ok { s with tmr := s.tmr - 1 }
  else onExpiry { s with tmr := s.tmr - 1, tmrEn := false }

/-! ## The meanings -/

/-- RX_CHUNK (R122). -/
def execRxChunk (bytes : List Byte) (s : State) : Host.Outcome State Fault Refusal := outcomeOf (feed bytes s)

/-- TX_DONE (R155). -/
def execTxDone (ok : Bool) (count : Word) (s : State) : Host.Outcome State Fault Refusal :=
  outcomeOf (onTxDone ok count s)

/-- OPEN_DONE (R249). -/
def execOpenDone (ok : Bool) (s : State) : Host.Outcome State Fault Refusal := outcomeOf (onOpenDone ok s)

/-- CLOSE_DONE (R249): the rules treat both values of `ok` alike. -/
def execCloseDone (_ok : Bool) (s : State) : Host.Outcome State Fault Refusal := outcomeOf (onCloseDone s)

/-- TP_ERROR (R273). -/
def execTpError (s : State) : Host.Outcome State Fault Refusal := outcomeOf (onTpError s)

/-- TICK (R163). -/
def execTick (s : State) : Host.Outcome State Fault Refusal := outcomeOf (onTick s)

/-- Reserved event code 6: no effect (R264). -/
def execReservedEvt6 (s : State) : Host.Outcome State Fault Refusal := .next s

/-- Reserved event code 7: no effect (R264). -/
def execReservedEvt7 (s : State) : Host.Outcome State Fault Refusal := .next s

end Sys2Proof.Machine
end

