-- ==== Sys2Proof/Machine/Wire.lean ====
section
/-! DEFINITION. The frame rows of the opcode table. A received frame reaches the block only as bytes of the receive
stream, so as an instruction it is the arrival of exactly its bytes in one chunk (log 6): the codec delimits it
(41_frame_codec.md R123, R124), decodes it (R130, R131) and hands it to the correlator (42_correlator.md R156 to R162).
A Data frame to send is the host's payload put in `PBUF` and a SENDPAY with the default timeout (R153; log 7). -/

namespace Sys2Proof.Machine

/-- The host writes `PBUF` at address `a` (20_memory.md R60, R68). -/
def hostWrite (a : Nat) (bytes : List Byte) (s : State) : Except Fault State :=
  match memWrite s.pbuf a bytes with
  | .ok m => .ok { s with pbuf := m }
  | .error e => .error e

/-! ## The meanings -/

/-- RESPONSE_ACK (R156). -/
def execResponseAck (dev : Half) (param : Word) (csum : Half) (s : State) : Host.Outcome State Fault Refusal :=
  outcomeOf (feed (responseFrame dev param Config.ack csum) s)

/-- RESPONSE_NACK (R158). -/
def execResponseNack (dev : Half) (param : Word) (csum : Half) (s : State) : Host.Outcome State Fault Refusal :=
  outcomeOf (feed (responseFrame dev param Config.nack csum) s)

/-- A Response with another marker (R130, 30_encoding.md R88). -/
def execResponseOtherMarker (dev : Half) (param : Word) (marker csum : Half) (s : State) :
    Host.Outcome State Fault Refusal :=
  outcomeOf (feed (responseFrame dev param marker csum) s)

/-- DATA_OUT (R121, R153). -/
def execDataOut (payload : List Byte) (s : State) : Host.Outcome State Fault Refusal :=
  outcomeOf (andThen (hostWrite 0 payload s) (requestSendpay (BitVec.ofNat 32 payload.length) 0))

/-- DATA_IN (R131). -/
def execDataIn (dev : Half) (payload : List Byte) (csum : Half) (s : State) : Host.Outcome State Fault Refusal :=
  outcomeOf (feed (dataFrame dev payload csum) s)

end Sys2Proof.Machine
end

