-- ==== Sys2Proof/Machine/Dispatch.lean ====
section
/-! DEFINITION. One arm per instruction: the meaning it calls. -/

namespace Sys2Proof.Machine

def exec (i : Instr) (s : State) : Host.Outcome State Fault Refusal :=
  match i with
  | .openCmd param => Sys2Proof.Machine.execOpenCmd param s
  | .closeCmd param => Sys2Proof.Machine.execCloseCmd param s
  | .usbCheck param => Sys2Proof.Machine.execUsbCheck param s
  | .changeBaudrate param => Sys2Proof.Machine.execChangeBaudrate param s
  | .cmosLed param => Sys2Proof.Machine.execCmosLed param s
  | .getEnrollCount param => Sys2Proof.Machine.execGetEnrollCount param s
  | .checkEnrolled param => Sys2Proof.Machine.execCheckEnrolled param s
  | .enrollStart param => Sys2Proof.Machine.execEnrollStart param s
  | .enroll1 param => Sys2Proof.Machine.execEnroll1 param s
  | .enroll2 param => Sys2Proof.Machine.execEnroll2 param s
  | .enroll3 param => Sys2Proof.Machine.execEnroll3 param s
  | .isPressFinger param => Sys2Proof.Machine.execIsPressFinger param s
  | .deleteId param => Sys2Proof.Machine.execDeleteId param s
  | .deleteAll param => Sys2Proof.Machine.execDeleteAll param s
  | .verify param => Sys2Proof.Machine.execVerify param s
  | .identify param => Sys2Proof.Machine.execIdentify param s
  | .verifyTemplate param => Sys2Proof.Machine.execVerifyTemplate param s
  | .identifyTemplate param => Sys2Proof.Machine.execIdentifyTemplate param s
  | .captureFinger param => Sys2Proof.Machine.execCaptureFinger param s
  | .makeTemplate param => Sys2Proof.Machine.execMakeTemplate param s
  | .getImage param => Sys2Proof.Machine.execGetImage param s
  | .getRawImage param => Sys2Proof.Machine.execGetRawImage param s
  | .getTemplate param => Sys2Proof.Machine.execGetTemplate param s
  | .setTemplate param => Sys2Proof.Machine.execSetTemplate param s
  | .responseAck dev param csum => Sys2Proof.Machine.execResponseAck dev param csum s
  | .responseNack dev param csum => Sys2Proof.Machine.execResponseNack dev param csum s
  | .responseOtherMarker dev param marker csum => Sys2Proof.Machine.execResponseOtherMarker dev param marker csum s
  | .dataOut payload => Sys2Proof.Machine.execDataOut payload s
  | .dataIn dev payload csum => Sys2Proof.Machine.execDataIn dev payload csum s
  | .send op param tmo => Sys2Proof.Machine.execSend op param tmo s
  | .recv op param len tmo => Sys2Proof.Machine.execRecv op param len tmo s
  | .sendpay len tmo => Sys2Proof.Machine.execSendpay len tmo s
  | .negotiate target => Sys2Proof.Machine.execNegotiate target s
  | .sessionReset => Sys2Proof.Machine.execSessionReset s
  | .reservedReq5 => Sys2Proof.Machine.execReservedReq5 s
  | .reservedReq6 => Sys2Proof.Machine.execReservedReq6 s
  | .reservedReq7 => Sys2Proof.Machine.execReservedReq7 s
  | .rxChunk bytes => Sys2Proof.Machine.execRxChunk bytes s
  | .txDone ok count => Sys2Proof.Machine.execTxDone ok count s
  | .openDone ok => Sys2Proof.Machine.execOpenDone ok s
  | .closeDone ok => Sys2Proof.Machine.execCloseDone ok s
  | .tpError => Sys2Proof.Machine.execTpError s
  | .tick => Sys2Proof.Machine.execTick s
  | .reservedEvt6 => Sys2Proof.Machine.execReservedEvt6 s
  | .reservedEvt7 => Sys2Proof.Machine.execReservedEvt7 s

end Sys2Proof.Machine
end

