-- ==== Sys2Proof/Machine/Fetch.lean ====
section
/-! DEFINITION. Taking one arrival from the input port: events of one instant in the order of 60_exceptions.md R265,
instants in order of time (00_scope.md R15; log 1, log 18). -/

namespace Sys2Proof.Machine

/-- An instruction's place in R265's order, the smallest first. A wire command is a host request; a received frame
is a chunk; the reserved events, which R265 does not name, come last (log 18). -/
def instrPriority : Instr → Nat
  | .sessionReset => 1
  | .txDone _ _ | .openDone _ | .closeDone _ => 2
  | .rxChunk _ | .responseAck _ _ _ | .responseNack _ _ _ | .responseOtherMarker _ _ _ _ | .dataIn _ _ _ => 3
  | .tpError => 4
  | .tick => 5
  | .openCmd _ | .closeCmd _ | .usbCheck _ | .changeBaudrate _ | .cmosLed _ | .getEnrollCount _
  | .checkEnrolled _ | .enrollStart _ | .enroll1 _ | .enroll2 _ | .enroll3 _ | .isPressFinger _
  | .deleteId _ | .deleteAll _ | .verify _ | .identify _ | .verifyTemplate _ | .identifyTemplate _
  | .captureFinger _ | .makeTemplate _ | .getImage _ | .getRawImage _ | .getTemplate _ | .setTemplate _ => 6
  | .dataOut _ => 6
  | .send _ _ _ | .recv _ _ _ _ | .sendpay _ _ | .negotiate _ => 6
  | .reservedReq5 | .reservedReq6 | .reservedReq7 => 6
  | .reservedEvt6 | .reservedEvt7 => 6

/-- The priority of a record; bytes that are no record wait with the requests. -/
def recordPriority (p : Port) (bytes : List Byte) : Nat :=
  match decode p bytes with
  | .ok i => instrPriority i
  | .error _ => 6

/-- An arrival's place in the order of its instant: power-on before everything, a write of `PBUF` among the host's
requests (log 18). -/
def itemPriority : PortItem → Nat
  | .powerOn => 0
  | .host bytes => recordPriority .host bytes
  | .link bytes => recordPriority .link bytes
  | .pbufWrite _ _ => 6

/-- The first of the highest-priority arrivals of an instant, and the others in their order. -/
def takeFirst : List PortItem → Option (PortItem × List PortItem)
  | [] => none
  | x :: xs =>
    match takeFirst xs with
    | none => some (x, [])
    | some (y, ys) => if itemPriority y < itemPriority x then some (y, x :: ys) else some (x, xs)

/-- The next arrival to take, and what then still waits. -/
def nextItem : List (List PortItem) → Option (PortItem × List (List PortItem))
  | [] => none
  | now :: later =>
    match takeFirst now with
    | none => nextItem later
    | some (x, xs) => some (x, xs :: later)

/-- The port item of a record. -/
def itemOf (p : Port) (bytes : List Byte) : PortItem :=
  match p with
  | .host => .host bytes
  | .link => .link bytes

/-- A write of `PBUF` by the host, between the block's own steps (20_memory.md R68; log 20). -/
def takePbufWrite (a : Nat) (bytes : List Byte) (s : State) : Host.Outcome State Fault Refusal :=
  outcomeOf (hostWrite a bytes s)

/-- Power-on reset (70_reset_and_hazards.md R290). What waits at the input port and what has left by the output port
are outside the block and stay (log 21). -/
def takePowerOn (s : State) : Host.Outcome State Fault Refusal :=
  .next { State.reset with port := s.port, out := s.out }

end Sys2Proof.Machine
end

