-- ==== Sys2Proof/Machine/Step.lean ====
section
/-! DEFINITION. One step: take the next arrival of the input port and run it (00_scope.md R15). -/

namespace Sys2Proof.Machine

/-- A record runs the instruction it decodes to. -/
def runRecord (p : Port) (bytes : List Byte) (s : State) : Host.Outcome State Fault Refusal :=
  match decode p bytes with
  | .ok i => exec i s
  | .error why => .refused (.malformedRecord why)

/-- An arrival, taken. -/
def runItem (x : PortItem) (s : State) : Host.Outcome State Fault Refusal :=
  match x with
  | .host bytes => runRecord .host bytes s
  | .link bytes => runRecord .link bytes s
  | .pbufWrite a bytes => takePbufWrite a bytes s
  | .powerOn => takePowerOn s

/-- One step of the block. With nothing at the port it waits (70_reset_and_hazards.md R290, R303). -/
def step (s : State) : Host.Outcome State Fault Refusal :=
  match nextItem s.port with
  | none => .next s
  | some (x, rest) => runItem x { s with port := rest }

/-- `s` with the opcode table's word as the one arrival of a new first instant, so that the very next step takes it. -/
def State.withFetchWord (s : State) (nbits w : Nat) : State :=
  { s with port := [itemOf (tableRecord nbits w).1 (tableRecord nbits w).2] :: s.port }

end Sys2Proof.Machine
end

