-- ==== Sys2Proof/Safety.lean ====
section
/-! DEFINITION. What counts as a safe state and a safe result, in the terms claims use: the invariant that the
rules of 10_state.md state of the registers together (`Consistent`), the status codes each request kind can end with
(60_exceptions.md R261), and runs of instructions. -/

namespace Sys2Proof.Machine

/-- No register holds a reserved encoding (10_state.md R24, R25, R29, R33, R35). -/
structure Legal (s : State) : Prop where
  cs : s.cs ≠ .reserved
  kind : s.pend.kind ≠ .reserved
  ns : nsReserved s.ns = false
  wait : s.tp.wait ≠ .reserved

/-- The states in which R150 accepts a correlator request: no operation outstanding, no write unanswered, the link
negotiated and open (42_correlator.md R150, 10_state.md R40). -/
structure LinkFree (s : State) : Prop where
  cs : s.cs = .idle
  txq : s.txq = 0
  ns : s.ns = .locked
  tp : s.tp.isOpen = true

/-- The states the rules can leave. Every field is a fact of the spec about registers taken together; the model's
own ports are free. -/
structure Consistent (s : State) : Prop where
  /-- No register holds a reserved encoding. -/
  legal : Legal s
  /-- `RB_LEN <= P_RBUF_CAP` (R22). -/
  rbFits : s.rb.length ≤ Config.rbufCap
  /-- `EDL` is 0 or a whole frame's length that fits `RB` (R23). -/
  edlLegal : s.edl = 0 ∨ (Config.dOvh ≤ s.edl.toNat ∧ s.edl.toNat ≤ Config.rbufCap)
  /-- `PBUF` keeps its form and its range (20_memory.md R60). -/
  pbufForm : Memory.wf s.pbuf
  pbufFits : ∀ c ∈ s.pbuf, c.1 < Config.pbufCap
  /-- At most two writes are unanswered (10_state.md R26); none when an open is outstanding for an attempt, at most
  the probe's while it runs. -/
  txqSmall : s.txq.toNat ≤ 2
  txqOpening : s.ns = .opening → s.txq = 0
  txqProbing : s.ns = .probing → s.txq.toNat ≤ 1
  /-- An enabled timer is not 0 (42_correlator.md R163). -/
  timerLive : s.tmrEn = true → s.tmr ≠ 0
  /-- The timer serves an outstanding operation or the settle delay, never both (10_state.md R27). -/
  timerOp : s.cs ≠ .idle → s.tmrEn = true
  timerUse : s.tmrEn = true → s.cs = .idle → s.ns = .settling
  timerSettle : s.ns = .settling → s.cs = .idle ∧ s.tmrEn = true
  /-- An operation of the host needs a locked link; an operation of the negotiator is its probe or its change-baud
  command (10_state.md R25, 44_baud_negotiator.md R233, R240). -/
  opHost : s.cs ≠ .idle → s.pend.owner = .host → s.ns = .locked
  opBn : s.cs ≠ .idle → s.pend.owner = .bn →
    (s.ns = .probing ∧ s.pend.kind = .recv ∧ s.pend.len = Config.identLen) ∨
      (s.ns = .changing ∧ s.pend.kind = .cmd)
  bnWaits : s.ns = .probing ∨ s.ns = .changing → s.cs ≠ .idle ∧ s.pend.owner = .bn
  /-- Only a receive has a data phase, and `EDL` is its frame's length (42_correlator.md R157, R161). -/
  dataPhase : s.cs = .waitData → s.pend.kind = .recv
  recvLen : s.cs ≠ .idle → s.pend.kind = .recv →
    s.edl.toNat = s.pend.len.toNat + Config.dOvh ∧ s.pend.len.toNat ≤ Config.pbufCap
  /-- The timeout category of an operation (60_exceptions.md R261, R262). -/
  catHost : s.cs ≠ .idle → s.pend.owner = .host →
    s.pend.tcat = if s.pend.kind = .cmd then .command else .bulk
  catChange : s.ns = .changing → s.pend.tcat = .command
  /-- `NIDX` names a candidate while one is tried (10_state.md R30). -/
  nidxAttempt : s.ns = .preclose ∨ s.ns = .opening ∨ s.ns = .probing ∨ s.ns = .closingFail → s.nidx.toNat < 5
  /-- The transport mirror and the negotiator's position agree (44_baud_negotiator.md R249). -/
  tpOpening : s.ns = .opening ∨ s.ns = .reopening → s.tp.wait = .open_
  tpClosing : s.ns = .preclose ∨ s.ns = .closingFail ∨ s.ns = .closingChg → s.tp.wait = .close
  tpUsed : s.ns = .probing ∨ s.ns = .changing ∨ s.ns = .settling ∨ s.ns = .locked →
    s.tp.isOpen = true ∧ s.tp.wait = .none

/-- The status codes, with the category of a timeout, that a result of request kind `req` can have
(60_exceptions.md R261). -/
def statusAllowed (req : BitVec 3) (st : Status) (cat : Tcat) : Bool :=
  match req.toNat, st with
  | 0, .ok | 0, .duplicateId | 0, .deviceNack | 0, .transportError | 0, .busy | 0, .notReady | 0, .aborted => true
  | 0, .timeout => decide (cat = .command)
  | 1, .ok | 1, .duplicateId | 1, .deviceNack | 1, .transportError | 1, .busy | 1, .notReady | 1, .badRequest
  | 1, .aborted => true
  | 1, .timeout => decide (cat = .bulk)
  | 2, .ok | 2, .duplicateId | 2, .deviceNack | 2, .transportError | 2, .busy | 2, .notReady | 2, .badRequest
  | 2, .aborted => true
  | 2, .timeout => decide (cat = .bulk)
  | 3, .ok | 3, .baudExhausted | 3, .duplicateId | 3, .deviceNack | 3, .transportError | 3, .busy
  | 3, .aborted => true
  | 3, .timeout => decide (cat = .command)
  | 4, .ok => true
  | 5, .badRequest | 6, .badRequest | 7, .badRequest => true
  | _, _ => false

/-- An output event that R261's table allows: every event but a result, and the results it lists. -/
def eventAllowed : OutEvent → Bool
  | .result r => statusAllowed r.req r.status r.tcat
  | .txFrame _ | .rxFlush | .openTp _ | .closeTp | .terrNotify => true

/-- No frame leaves but right after a receive flush (20_memory.md R71). `prev` is the event before. -/
def framesFlushed : OutEvent → List OutEvent → Bool
  | _, [] => true
  | prev, e :: rest =>
    (match e with
      | .txFrame _ => decide (prev = .rxFlush)
      | .rxFlush | .openTp _ | .closeTp | .result _ | .terrNotify => true)
      && framesFlushed e rest

/-- Instructions taken one after the other, stopping at the first fault or refusal. -/
def execAll : List Instr → State → Host.Outcome State Fault Refusal
  | [], s => .next s
  | i :: rest, s =>
    match exec i s with
    | .next t => execAll rest t
    | .fault e => .fault e
    | .refused r => .refused r

end Sys2Proof.Machine
end

