-- ==== Sys2Proof/Certificates/Slice0/Obligations.lean ====
section
/-! DEFINITION. The statements for the provers. "Legal" states hold no reserved encoding; "LinkFree" states are those
in which the correlator accepts a request (Sys2Proof/Safety.lean). A title or docstring that says "model" marks a
choice of the model's with its log entry. -/

open Sys2Proof Sys2Proof.Machine

/-! ## Encoding -/

/-- Every well-formed instruction's record decodes to it, on its port. The byte image of the request and event records
is the model's (log 3). -/
def Obligations.DecodeOfEncode : Prop :=
  ∀ i : Instr, i.wf = true → decode (portOf i) (encode i) = .ok i

/-- Whatever bytes a port holds, an instruction the decoder gives is well formed and belongs to that port. -/
def Obligations.DecodedIsWellFormed : Prop :=
  ∀ (p : Port) (bytes : List Byte) (i : Instr), decode p bytes = .ok i → i.wf = true ∧ portOf i = p

/-- A host record is the row of a named command exactly when its fixed bytes match: start marker, device-id, opcode and
reserved byte; the parameter is bytes 4 to 7, little-endian, and the checksum bytes are free (30_encoding.md R97). -/
def Obligations.CommandRowMatchesFixedBytes : Prop :=
  ∀ (c : Command) (p : Word) (f : List Byte),
    decode .host f = .ok (commandInstr c p) ↔
      ∃ p0 p1 p2 p3 c0 c1 : Byte,
        f = [0x55, 0xAA, 0x01, 0x00, p0, p1, p2, p3, opcodeOf c, 0x00, c0, c1] ∧
          p.toNat = p0.toNat + 256 * p1.toNat + 65536 * p2.toNat + 16777216 * p3.toNat

/-- A few words of the opcode table, written out from their encodings. -/
def Obligations.SampleWordsDecode : Prop :=
  decodeTableWord 96 0x55AA01000100000012001301 = some (.cmosLed 1) ∧
  decodeTableWord 96 0x55AA010000C201000400C701 = some (.changeBaudrate 115200) ∧
  decodeTableWord 96 0x55AA01000500000030003501 = some (.responseAck 1 5 0x0135) ∧
  decodeTableWord 96 0x55AA0100960000003100C701 = some (.responseNack 1 150 0x01C7) ∧
  decodeTableWord 32 0x5AA50100 = some (.dataOut []) ∧
  decodeTableWord 32 0x5AA50700 = some (.dataIn 7 [] 0) ∧
  decodeTableWord 8 0x4 = some .sessionReset

/-- The 12 bytes of a Command frame (30_encoding.md R81), with the checksum written out. -/
def Obligations.CommandFrameLayout : Prop :=
  ∀ (op : Byte) (p : Word) (b : Nat → Byte),
    (∀ k, b k = BitVec.ofNat 8 (p.toNat / 256 ^ k)) →
    ∀ c : Nat, c = 0x55 + 0xAA + 0x01 + 0x00 + (b 0).toNat + (b 1).toNat + (b 2).toNat + (b 3).toNat + op.toNat + 0x00 →
      encodeCommand op p =
        [0x55, 0xAA, 0x01, 0x00, b 0, b 1, b 2, b 3, op, 0x00, BitVec.ofNat 8 c, BitVec.ofNat 8 (c / 256)]

/-- The opcode byte of every named command, and no other byte names one (30_encoding.md R89). -/
def Obligations.OpcodeMap : Prop :=
  allCommands.map (fun c => (c, opcodeOf c)) =
    [(.openDev, 0x01), (.closeDev, 0x02), (.usbCheck, 0x03), (.changeBaudrate, 0x04), (.cmosLed, 0x12),
     (.getEnrollCount, 0x20), (.checkEnrolled, 0x21), (.enrollStart, 0x22), (.enroll1, 0x23), (.enroll2, 0x24),
     (.enroll3, 0x25), (.isPressFinger, 0x26), (.deleteId, 0x40), (.deleteAll, 0x41), (.verify, 0x50),
     (.identify, 0x51), (.verifyTemplate, 0x52), (.identifyTemplate, 0x53), (.captureFinger, 0x60),
     (.makeTemplate, 0x61), (.getImage, 0x62), (.getRawImage, 0x63), (.getTemplate, 0x70), (.setTemplate, 0x71)] ∧
  ∀ (op : Byte) (c : Command), commandOf op = some c ↔ opcodeOf c = op

/-! ## Checksum and decoding -/

/-- The checksum is the byte sum modulo 2^16 whatever the order of the bytes; the empty sequence gives 0; 256 payload
bytes of 0xFF wrap to 0 (40_checksum.md R110). -/
def Obligations.ChecksumIsByteSum : Prop :=
  (∀ s : List Byte, (checksum s).toNat = (s.map BitVec.toNat).sum % 65536) ∧
  checksum [] = 0 ∧
  (∀ s t : List Byte, s.Perm t → checksum s = checksum t) ∧
  (∀ n : Nat, (checksum ([0x5A, 0xA5, 0x01, 0x00] ++ List.replicate n 0xFF)).toNat = (0x0100 + 255 * n) % 65536) ∧
  checksum [0x55, 0xAA, 0x01, 0x00, 0x00, 0x00, 0x00, 0x00, 0x01, 0x00] = 0x0101

/-- The generator's accumulator, cleared and stepped over the bytes, holds the checksum (40_checksum.md, the hardware
form). -/
def Obligations.AccumulatorComputesChecksum : Prop :=
  ∀ s : List Byte, s.foldl accStep 0 = checksum s

/-- Every frame the codec builds verifies (40_checksum.md R114). -/
def Obligations.BuiltFramesVerify : Prop :=
  (∀ (op : Byte) (p : Word), checksumValid (encodeCommand op p) = true) ∧
  (∀ s : List Byte, s.length ≤ Config.pbufCap → checksumValid (encodeData s) = true)

/-- `DecodeResponse` of any 12 bytes (41_frame_codec.md R130). -/
def Obligations.ResponseDecoding : Prop :=
  ∀ m0 m1 d0 d1 p0 p1 p2 p3 a0 a1 c0 c1 : Byte,
    let r := decodeResponse [m0, m1, d0, d1, p0, p1, p2, p3, a0, a1, c0, c1]
    r.dev.toNat = d0.toNat + 256 * d1.toNat ∧
    r.param.toNat = p0.toNat + 256 * p1.toNat + 65536 * p2.toNat + 16777216 * p3.toNat ∧
    r.mark.toNat = a0.toNat + 256 * a1.toNat ∧
    (r.ack = true ↔ a0 = 0x30 ∧ a1 = 0x00) ∧
    (r.csumOk = true ↔
      m0.toNat + m1.toNat + d0.toNat + d1.toNat + p0.toNat + p1.toNat + p2.toNat + p3.toNat + a0.toNat + a1.toNat =
        c0.toNat + 256 * c1.toNat)

/-- `DecodeData` of any frame of 6 or more bytes (41_frame_codec.md R131). -/
def Obligations.DataDecoding : Prop :=
  ∀ (m0 m1 d0 d1 c0 c1 : Byte) (payload : List Byte),
    let r := decodeData ([m0, m1, d0, d1] ++ payload ++ [c0, c1])
    r.dev.toNat = d0.toNat + 256 * d1.toNat ∧
    r.payload = payload ∧
    (r.csumOk = true ↔
      (m0.toNat + m1.toNat + d0.toNat + d1.toNat + (payload.map BitVec.toNat).sum) % 65536 =
        c0.toNat + 256 * c1.toNat)

/-- The meaning of every code: the table's rows, and UNKNOWN for every other code (42_correlator.md R159). -/
def Obligations.NackMeaningTable : Prop :=
  ∀ code : Word,
    (nackCode (nackMeaning code)).toNat =
      (([(0x1003, 1), (0x1004, 2), (0x1005, 3), (0x1006, 4), (0x1007, 5), (0x1008, 6), (0x1009, 7), (0x100A, 8),
         (0x100C, 9), (0x100D, 10), (0x100E, 11), (0x100F, 12), (0x1011, 13), (0x1012, 14)] :
        List (Nat × Nat)).lookup code.toNat).getD 15

/-! ## The receive side -/

/-- A chunk of two parts does what the two chunks do one after the other (41_frame_codec.md R133). -/
def Obligations.ChunkInvariance : Prop :=
  ∀ (a b : List Byte) (s : State), exec (.rxChunk (a ++ b)) s = execAll [.rxChunk a, .rxChunk b] s

/-- After a chunk no frame is left to extract, and under RESYNC no byte is left that can begin none (41_frame_codec.md,
the extraction loop and the noise policies). -/
def Obligations.ExtractionSettles : Prop :=
  ∀ (b : Byte) (bytes : List Byte) (s t : State), exec (.rxChunk (b :: bytes)) s = .next t →
    respReady t.rb = false ∧ dataReady t.edl t.rb = false ∧
      (Config.noisePolicy = .resync → t.rb = [] ∨ headMayStart t.edl t.rb = true)

/-- Without overflow, the bytes held and the bytes of the chunk are, in order, the extracted frames, the discarded noise
and what is still held; noise is counted, and there is none under RETAIN (20_memory.md, stream conservation). Each
part is a frame (`true`) or noise (`false`). -/
def Obligations.StreamConserved : Prop :=
  ∀ (bytes : List Byte) (s t : State), exec (.rxChunk bytes) s = .next t → t.rbOvf = false →
    ∃ parts : List (Bool × List Byte),
      s.rb ++ bytes = (parts.map (·.2)).flatten ++ t.rb ∧
      (∀ f, (true, f) ∈ parts →
        (f.length = 12 ∧ startsWith 0x55 0xAA f = true) ∨
          (6 ≤ f.length ∧ f.length = s.edl.toNat ∧ startsWith 0x5A 0xA5 f = true)) ∧
      t.noiseDrop = s.noiseDrop + BitVec.ofNat 32 (((parts.filter (fun x => !x.1)).map (·.2.length)).sum) ∧
      (Config.noisePolicy = .retain → ∀ x ∈ parts, x.1 = true)

/-- A byte that finds `RB` full is lost and sets RB_OVF; extraction is tried all the same (41_frame_codec.md,
overflow). -/
def Obligations.FullBufferLosesByte : Prop :=
  ∀ (b : Byte) (s : State), s.rb.length = Config.rbufCap →
    exec (.rxChunk [b]) s = outcomeOf (extractAll { s with rbOvf := true })

/-- RX_CHUNK of no bytes changes nothing; the start of a Response frame that arrives at an empty `RB` stays there; a whole
Response frame, and a whole Data frame of the expected length, that arrives at an empty `RB` is taken from it, decoded and
handed to the correlator in the same step (41_frame_codec.md, the feed step). In every state the four received-frame rows
are the arrival of the frame's bytes in one chunk (the model's reading, log 6), so what is stated of them holds of RX_CHUNK
under every split that `ChunkInvariance` allows. -/
def Obligations.PartialResponseIsHeld : Prop :=
  (∀ s : State, exec (.rxChunk []) s = .next s) ∧
  (∀ (rest : List Byte) (s : State), s.rb = [] → rest.length < 10 →
    exec (.rxChunk ([0x55, 0xAA] ++ rest)) s = .next { s with rb := [0x55, 0xAA] ++ rest }) ∧
  (∀ (dev mark csum : Half) (p : Word) (s : State), s.rb = [] →
    exec (.rxChunk (responseFrame dev p mark csum)) s =
      outcomeOf (deliverResponse (decodeResponse (responseFrame dev p mark csum)) s)) ∧
  (∀ (dev csum : Half) (payload : List Byte) (s : State), s.rb = [] → s.edl.toNat = payload.length + 6 →
    payload.length + 6 ≤ Config.rbufCap →
    exec (.rxChunk (dataFrame dev payload csum)) s =
      outcomeOf (deliverData (decodeData (dataFrame dev payload csum)) s)) ∧
  (∀ (dev mark csum : Half) (p : Word) (payload : List Byte) (s : State),
    exec (.responseAck dev p csum) s = exec (.rxChunk (responseFrame dev p 0x0030 csum)) s ∧
    exec (.responseNack dev p csum) s = exec (.rxChunk (responseFrame dev p 0x0031 csum)) s ∧
    exec (.responseOtherMarker dev p mark csum) s = exec (.rxChunk (responseFrame dev p mark csum)) s ∧
    exec (.dataIn dev payload csum) s = exec (.rxChunk (dataFrame dev payload csum)) s)

/-! ## Wire commands and requests: issue -/

/-- The 20 commands whose host sequence begins with a SEND (43_commands.md, the profile table; a host's OPEN and
CHANGE_BAUDRATE as SEND are the model's reading, log 5). -/
def Obligations.SendCommandsIssue : Prop :=
  ∀ (i : Instr) (op : Byte) (p : Word) (s : State), LinkFree s →
    (i, op) ∈ [(.openCmd p, 0x01), (.closeCmd p, 0x02), (.usbCheck p, 0x03), (.changeBaudrate p, 0x04),
      (.cmosLed p, 0x12), (.getEnrollCount p, 0x20), (.checkEnrolled p, 0x21), (.enrollStart p, 0x22),
      (.enroll1 p, 0x23), (.enroll2 p, 0x24), (.enroll3 p, 0x25), (.isPressFinger p, 0x26), (.deleteId p, 0x40),
      (.deleteAll p, 0x41), (.verify p, 0x50), (.identify p, 0x51), (.verifyTemplate p, 0x52),
      (.identifyTemplate p, 0x53), (.captureFinger p, 0x60), ((.setTemplate p : Instr), (0x71 : Byte))] →
    exec i s = .next { s with
      pend := { kind := .cmd, owner := .host, op := op, param := p, len := 0, tcat := .command, ackp := 0,
                rcsum := false }
      cs := .waitResp
      out := s.out ++ [.rxFlush, .txFrame (encodeCommand op p)]
      txq := 1
      tmr := 1000
      tmrEn := true }

/-- The 4 commands whose host sequence is a RECV, with their payload lengths and timeouts (43_commands.md, the profile
table; log 5). -/
def Obligations.ReceiveCommandsIssue : Prop :=
  ∀ (i : Instr) (op : Byte) (len tmo p : Word) (s : State), LinkFree s →
    (i, op, len, tmo) ∈ [(.makeTemplate p, 0x61, 498, 5000), (.getTemplate p, 0x70, 498, 5000),
      (.getImage p, 0x62, 52116, 10000), ((.getRawImage p : Instr), (0x63 : Byte), (19200 : Word), (10000 : Word))] →
    exec i s = .next { s with
      edl := len + 6
      pend := { kind := .recv, owner := .host, op := op, param := p, len := len, tcat := .bulk, ackp := 0,
                rcsum := false }
      cs := .waitResp
      out := s.out ++ [.rxFlush, .txFrame (encodeCommand op p)]
      txq := 1
      tmr := tmo
      tmrEn := true }

/-- An accepted SEND of any opcode (42_correlator.md, SEND and Issue). -/
def Obligations.SendIssues : Prop :=
  ∀ (op : Byte) (p tmo : Word) (s : State), LinkFree s →
    exec (.send op p tmo) s = .next { s with
      pend := { kind := .cmd, owner := .host, op := op, param := p, len := 0, tcat := .command, ackp := 0,
                rcsum := false }
      cs := .waitResp
      out := s.out ++ [.rxFlush, .txFrame (encodeCommand op p)]
      txq := 1
      tmr := if tmo = 0 then 1000 else tmo
      tmrEn := true }

/-- An accepted RECV sets `EDL` to the total length and issues its command (42_correlator.md, RECV and Issue). -/
def Obligations.RecvIssues : Prop :=
  ∀ (op : Byte) (p len tmo : Word) (s : State), LinkFree s → tmo ≠ 0 → len.toNat ≤ Config.pbufCap →
    len.toNat + 6 ≤ Config.rbufCap →
    exec (.recv op p len tmo) s = .next { s with
      edl := len + 6
      pend := { kind := .recv, owner := .host, op := op, param := p, len := len, tcat := .bulk, ackp := 0,
                rcsum := false }
      cs := .waitResp
      out := s.out ++ [.rxFlush, .txFrame (encodeCommand op p)]
      txq := 1
      tmr := tmo
      tmrEn := true }

/-- An accepted SENDPAY sends the bytes `PBUF` holds at issue; it changes neither `PBUF` nor `EDL`
(42_correlator.md, SENDPAY and Issue). -/
def Obligations.SendpayIssues : Prop :=
  ∀ (len tmo : Word) (payload : List Byte) (s : State), LinkFree s → len.toNat ≤ Config.pbufCap →
    payload.length = len.toNat → (∀ k, k < len.toNat → pbufGet s.pbuf k = payload[k]?) →
    exec (.sendpay len tmo) s = .next { s with
      pend := { kind := .sendpay, owner := .host, op := 0, param := 0, len := len, tcat := .bulk, ackp := 0,
                rcsum := false }
      cs := .waitResp
      out := s.out ++ [.rxFlush, .txFrame (encodeData payload)]
      txq := 1
      tmr := if tmo = 0 then 1000 else tmo
      tmrEn := true }

/-- A SENDPAY that is accepted and meets a byte nothing has written stops by name: the spec calls the read a model fault
(70_reset_and_hazards.md, payload buffer access; log 13). -/
def Obligations.SendpayOfUnwrittenByteFaults : Prop :=
  ∀ (len tmo : Word) (k : Nat) (s : State), LinkFree s → len.toNat ≤ Config.pbufCap → k < len.toNat →
    pbufGet s.pbuf k = none → ∃ j, j < len.toNat ∧ pbufGet s.pbuf j = none ∧
      exec (.sendpay len tmo) s = .fault (.pbufUnwritten j)

/-- DATA_OUT puts the payload in `PBUF`, no other byte of `PBUF` changes, and then does what a SENDPAY with the default
timeout does, which on a free link sends the payload; a payload that `PBUF` cannot hold stops by name (the model's reading
of the row, log 7, log 14). -/
def Obligations.DataOutSends : Prop :=
  ∀ (payload : List Byte) (s : State),
    (Config.pbufCap < payload.length → exec (.dataOut payload) s = .fault (.pbufRange payload.length)) ∧
    (payload.length ≤ Config.pbufCap →
      ∃ m : Memory,
        (∀ k, k < payload.length → pbufGet m k = payload[k]?) ∧
        (∀ k, payload.length ≤ k → pbufGet m k = pbufGet s.pbuf k) ∧
        exec (.dataOut payload) s = exec (.sendpay (BitVec.ofNat 32 payload.length) 0) { s with pbuf := m } ∧
        (LinkFree s → exec (.dataOut payload) s = .next { s with
          pbuf := m
          pend := { kind := .sendpay, owner := .host, op := 0, param := 0, len := BitVec.ofNat 32 payload.length,
                    tcat := .bulk, ackp := 0, rcsum := false }
          cs := .waitResp
          out := s.out ++ [.rxFlush, .txFrame (encodeData payload)]
          txq := 1
          tmr := 1000
          tmrEn := true }))

/-! ## Refusals -/

/-- The refusals of the correlator requests, and of the wire commands that issue one, in their order: BUSY, then
NOT_READY, then BAD_REQUEST; only the result changes (42_correlator.md, acceptance; the commands are the model's reading,
log 5). -/
def Obligations.RefusalsInOrder : Prop :=
  ∀ (i : Instr) (req : BitVec 3) (bad : Bool) (s : State), Legal s →
    ((∃ op p tmo, i = .send op p tmo ∧ req = 0 ∧ bad = false) ∨
     (∃ op p len tmo, i = .recv op p len tmo ∧ req = 1 ∧
        bad = decide (tmo = 0 ∨ Config.pbufCap < len.toNat ∨ Config.rbufCap < len.toNat + 6)) ∨
     (∃ len tmo, i = .sendpay len tmo ∧ req = 2 ∧ bad = decide (Config.pbufCap < len.toNat)) ∨
     (∃ c p, i = commandInstr c p ∧ bad = false ∧
        req = if c ∈ [Command.makeTemplate, .getTemplate, .getImage, .getRawImage] then 1 else 0)) →
    ∀ st : Status,
      ((s.cs ≠ .idle ∨ s.txq ≠ 0 ∨ nsInProgress s.ns = true) ∧ st = .busy) ∨
      ((s.cs = .idle ∧ s.txq = 0 ∧ nsInProgress s.ns = false) ∧ (s.ns ≠ .locked ∨ s.tp.isOpen = false) ∧
        st = .notReady) ∨
      (LinkFree s ∧ bad = true ∧ st = .badRequest) →
    exec i s = .next { s with
      last := { ResultRecord.zero with valid := true, req := req, status := st }
      out := s.out ++ [.result { ResultRecord.zero with valid := true, req := req, status := st }] }

/-- While an operation is outstanding every other request of the host is answered and leaves the operation, its timer,
the negotiator with its rates and the identity, the receive side, the counters, RB_OVF and TERR as they are; only DATA_OUT
changes `PBUF` (42_correlator.md R167; log 7). -/
def Obligations.SingleFlight : Prop :=
  ∀ (i : Instr) (s t : State), portOf i = .host → i ≠ .sessionReset → s.cs ≠ .idle → exec i s = .next t →
    t.cs = s.cs ∧ t.pend = s.pend ∧ t.tmr = s.tmr ∧ t.tmrEn = s.tmrEn ∧ t.txq = s.txq ∧ t.ns = s.ns ∧
    t.nidx = s.nidx ∧ t.target = s.target ∧ t.lockBaud = s.lockBaud ∧ t.curBaud = s.curBaud ∧ t.ident = s.ident ∧
    t.tp = s.tp ∧ t.rb = s.rb ∧ t.edl = s.edl ∧ t.rbOvf = s.rbOvf ∧ t.terr = s.terr ∧ t.dropResp = s.dropResp ∧
    t.dropData = s.dropData ∧ t.noiseDrop = s.noiseDrop ∧ ((∀ payload, i ≠ .dataOut payload) → t.pbuf = s.pbuf) ∧
    ∃ r : ResultRecord, t.out = s.out ++ [.result r] ∧ t.last = r ∧ (r.status = .busy ∨ r.status = .badRequest)

/-- The reserved request kinds are answered BAD_REQUEST in every state (42_correlator.md, acceptance). -/
def Obligations.ReservedRequestsRefused : Prop :=
  ∀ (i : Instr) (k : BitVec 3) (s : State),
    (i, k) ∈ [(Instr.reservedReq5, (5 : BitVec 3)), (.reservedReq6, 6), (.reservedReq7, 7)] →
    exec i s = .next { s with
      last := { ResultRecord.zero with valid := true, req := k, status := .badRequest }
      out := s.out ++ [.result { ResultRecord.zero with valid := true, req := k, status := .badRequest }] }

/-! ## Binding of received frames -/

/-- An acknowledging Response that arrives whole at an empty `RB` completes a host's SEND or SENDPAY with its
parameter, and starts the settle delay where it answers the negotiator's change-baud command; the checksum is only
reported (42_correlator.md, binding; 44_baud_negotiator.md R241; the arrival in one chunk is the model's, log 6). -/
def Obligations.AckCompletes : Prop :=
  ∀ (dev csum : Half) (p : Word) (s : State), s.rb = [] → s.cs = .waitResp →
    (s.pend.owner = .host → s.pend.kind = .cmd ∨ s.pend.kind = .sendpay →
      let r : ResultRecord := { ResultRecord.zero with
        valid := true, req := kindCode s.pend.kind, status := .ok, value := p,
        rcsum := checksumValid (responseFrame dev p 0x0030 csum) }
      exec (.responseAck dev p csum) s =
        .next { s with cs := .idle, tmrEn := false, last := r, out := s.out ++ [.result r] }) ∧
    (s.pend.owner = .bn → s.pend.kind = .cmd → s.ns = .changing →
      exec (.responseAck dev p csum) s = .next { s with cs := .idle, tmrEn := true, ns := .settling, tmr := 200 })

/-- An acknowledging Response to a receive opens its data phase: no result, the timer keeps running
(42_correlator.md R157; the arrival in one chunk is the model's, log 6). -/
def Obligations.AckOpensDataPhase : Prop :=
  ∀ (dev csum : Half) (p : Word) (s : State), s.rb = [] → s.cs = .waitResp → s.pend.kind = .recv →
    exec (.responseAck dev p csum) s = .next { s with
      cs := .waitData
      pend := { s.pend with ackp := p, rcsum := checksumValid (responseFrame dev p 0x0030 csum) } }

/-- A Response with marker 0x0031, or any other marker but 0x0030, ends an operation of any kind: below 200 its
parameter is a duplicate ID, otherwise a NACK code with its meaning. A host's operation gives that result; the
negotiator's probe fails without one; its change-baud command ends the negotiation in FAILED with it (42_correlator.md
R158; 30_encoding.md R88; 44_baud_negotiator.md R236, R245; the arrival in one chunk is the model's, log 6). -/
def Obligations.NackTranslation : Prop :=
  ∀ (dev mark csum : Half) (p : Word) (s : State), mark ≠ 0x0030 → s.rb = [] → s.cs = .waitResp → Legal s →
    let answer (req : BitVec 3) : ResultRecord := { ResultRecord.zero with
      valid := true, req := req, value := p,
      status := if p.toNat < 200 then .duplicateId else .deviceNack,
      nack := if p.toNat < 200 then .none else nackMeaning p,
      rcsum := checksumValid (responseFrame dev p mark csum) }
    let ends (t : State) : Prop :=
      exec (.responseOtherMarker dev p mark csum) s = .next t ∧
        (mark = 0x0031 → exec (.responseNack dev p csum) s = .next t)
    (s.pend.owner = .host → ends { s with
      cs := .idle, tmrEn := false, last := answer (kindCode s.pend.kind),
      out := s.out ++ [.result (answer (kindCode s.pend.kind))] }) ∧
    (s.pend.owner = .bn → s.ns = .probing → ends { s with
      cs := .idle, tmrEn := false, ns := .closingFail, tp := { s.tp with wait := .close },
      out := s.out ++ [.closeTp] }) ∧
    (s.pend.owner = .bn → s.ns = .changing → ends { s with
      cs := .idle, tmrEn := false, ns := .failed, last := answer 3, out := s.out ++ [.result (answer 3)] })

/-- A Response delivered with no listener is counted and changes nothing else (42_correlator.md R160); so do the three
Response rows, which are the model's arrival of the frame in one chunk (log 6). -/
def Obligations.UnboundResponseDropped : Prop :=
  ∀ (dev mark csum : Half) (p : Word) (s : State), s.cs = .idle ∨ s.cs = .waitData →
    (∀ d : DecodedResponse, deliverResponse d s = .ok { s with dropResp := s.dropResp + 1 }) ∧
    (s.rb = [] →
      exec (.responseAck dev p csum) s = .next { s with dropResp := s.dropResp + 1 } ∧
      exec (.responseNack dev p csum) s = .next { s with dropResp := s.dropResp + 1 } ∧
      exec (.responseOtherMarker dev p mark csum) s = .next { s with dropResp := s.dropResp + 1 })

/-- A Data frame of the expected length that arrives whole at an empty `RB` completes a host's receive: the payload is in
`PBUF` from address 0, every other byte of `PBUF` is as before (42_correlator.md, binding; the arrival in one chunk is the
model's, log 6). -/
def Obligations.DataCompletesReceive : Prop :=
  ∀ (dev csum : Half) (payload : List Byte) (s : State), s.rb = [] → s.cs = .waitData → s.pend.kind = .recv →
    s.pend.owner = .host → s.edl.toNat = payload.length + 6 → payload.length ≤ Config.pbufCap →
    payload.length + 6 ≤ Config.rbufCap →
    let r : ResultRecord := { ResultRecord.zero with
      valid := true, req := 1, status := .ok, value := s.pend.ackp, len := BitVec.ofNat 32 payload.length,
      rcsum := s.pend.rcsum, dcsum := checksumValid (dataFrame dev payload csum) }
    ∃ m : Memory,
      exec (.dataIn dev payload csum) s = .next { s with
        cs := .idle, tmrEn := false, pbuf := m, last := r, out := s.out ++ [.result r] } ∧
      (∀ k, k < payload.length → pbufGet m k = payload[k]?) ∧
      (∀ k, payload.length ≤ k → pbufGet m k = pbufGet s.pbuf k)

/-- A Data frame delivered outside a data phase is counted and changes nothing else (42_correlator.md R162); so does
DATA_IN, which is the model's arrival of the frame in one chunk (log 6). -/
def Obligations.UnboundDataDropped : Prop :=
  ∀ (dev csum : Half) (payload : List Byte) (s : State), s.cs = .idle ∨ s.cs = .waitResp →
    (∀ d : DecodedData, deliverData d s = .ok { s with dropData := s.dropData + 1 }) ∧
    (s.rb = [] → s.edl.toNat = payload.length + 6 →
      payload.length + 6 ≤ Config.rbufCap →
      exec (.dataIn dev payload csum) s = .next { s with dropData := s.dropData + 1 })

/-! ## Write answers and the timer -/

/-- TX_DONE: a stray answer, the answer to an older write, the answer after the operation ended, a good answer, and a
failed or short write of a host's operation (42_correlator.md R155). -/
def Obligations.TxDoneAnswers : Prop :=
  ∀ (ok : Bool) (count : Word) (s : State), Legal s →
    exec (.txDone ok count) s =
      if s.txq = 0 then .next s
      else if s.txq ≠ 1 ∨ s.cs = .idle then .next { s with txq := s.txq - 1 }
      else if ok = true ∧ count.toNat = (if s.pend.kind = .sendpay then s.pend.len.toNat + 6 else 12) then
        .next { s with txq := 0 }
      else outcomeOf (complete { status := .transportError } { s with txq := 0 })

/-- The end of an operation: its listener is gone and its timer is off; a host's result is recorded and sent; an error of
the probe closes the transport and reports nothing; an ACK of the change-baud command starts the settle delay, and any
other answer ends the negotiation in FAILED with the error; everything else stays (42_correlator.md, completion;
44_baud_negotiator.md, probe failure, change-baud steps). -/
def Obligations.CompletionOutcomes : Prop :=
  ∀ (r : OpResult) (s : State),
    (Legal s → s.pend.owner = .host →
      let rec_ : ResultRecord := {
        valid := true, req := kindCode s.pend.kind, status := r.status, tcat := r.tcat, nack := r.nack,
        value := r.value, len := r.len, rcsum := r.rcsum, dcsum := r.dcsum }
      complete r s = .ok { s with cs := .idle, tmrEn := false, last := rec_, out := s.out ++ [.result rec_] }) ∧
    (s.pend.owner = .bn → s.ns = .probing → r.status ≠ .ok →
      complete r s = .ok { s with
        cs := .idle, tmrEn := false, ns := .closingFail, tp := { s.tp with wait := .close },
        out := s.out ++ [.closeTp] }) ∧
    (s.pend.owner = .bn → s.ns = .changing → r.status = .ok →
      complete r s = .ok { s with cs := .idle, tmrEn := true, ns := .settling, tmr := 200 }) ∧
    (s.pend.owner = .bn → s.ns = .changing → r.status ≠ .ok →
      let rec_ : ResultRecord := {
        valid := true, req := 3, status := r.status, tcat := r.tcat, nack := r.nack,
        value := r.value, len := r.len, rcsum := r.rcsum, dcsum := r.dcsum }
      complete r s = .ok { s with
        cs := .idle, tmrEn := false, ns := .failed, last := rec_, out := s.out ++ [.result rec_] })

/-- TICK: off; running, from a TMR that is not 0 (at 0 with the timer on, which no rule leaves, see log 19); expiring with
a host's operation, with the negotiator's probe and with its change-baud command outstanding; and the end of the settle
delay (42_correlator.md, timeout; 44_baud_negotiator.md R236, R242, R245). -/
def Obligations.TickEffects : Prop :=
  ∀ s : State, Legal s →
    (s.tmrEn = false → exec .tick s = .next s) ∧
    (s.tmrEn = true → s.tmr ≠ 0 → s.tmr ≠ 1 → exec .tick s = .next { s with tmr := s.tmr - 1 }) ∧
    (s.tmrEn = true → s.tmr = 1 → s.cs ≠ .idle →
      let late (req : BitVec 3) : ResultRecord := { ResultRecord.zero with
        valid := true, req := req, status := .timeout, tcat := s.pend.tcat, rcsum := s.pend.rcsum }
      (s.pend.owner = .host → exec .tick s = .next { s with
        tmr := 0, tmrEn := false, cs := .idle, last := late (kindCode s.pend.kind),
        out := s.out ++ [.result (late (kindCode s.pend.kind))] }) ∧
      (s.pend.owner = .bn → s.ns = .probing → exec .tick s = .next { s with
        tmr := 0, tmrEn := false, cs := .idle, ns := .closingFail, tp := { s.tp with wait := .close },
        out := s.out ++ [.closeTp] }) ∧
      (s.pend.owner = .bn → s.ns = .changing → exec .tick s = .next { s with
        tmr := 0, tmrEn := false, cs := .idle, ns := .failed, last := late 3, out := s.out ++ [.result (late 3)] })) ∧
    (s.tmrEn = true → s.tmr = 1 → s.cs = .idle → s.ns = .settling →
      exec .tick s = .next { s with
        tmr := 0, tmrEn := false, ns := .closingChg, tp := { s.tp with wait := .close },
        out := s.out ++ [.closeTp] })

/-- A timer loaded with `n + 1` ticks has 1 left after `n` ticks with nothing else changed, and the next tick times the
host's operation out (70_reset_and_hazards.md, exact expiry). -/
def Obligations.TimerExpiresExactly : Prop :=
  ∀ (n : Nat) (s : State), Legal s → s.tmrEn = true → s.tmr.toNat = n + 1 → s.cs ≠ .idle → s.pend.owner = .host →
    execAll (List.replicate n .tick) s = .next { s with tmr := 1 } ∧
    ∃ t : State, execAll (List.replicate (n + 1) .tick) s = .next t ∧ t.cs = .idle ∧ t.tmrEn = false ∧
      t.last.status = .timeout ∧ t.last.tcat = s.pend.tcat ∧ t.out = s.out ++ [.result t.last]

/-! ## The negotiator -/

/-- An accepted NEGOTIATE closes an open transport, or opens the first candidate (44_baud_negotiator.md, start). -/
def Obligations.NegotiateStarts : Prop :=
  ∀ (target : Word) (s : State), s.cs = .idle → s.txq = 0 → s.tp.wait = .none →
    s.ns = .untried ∨ s.ns = .locked ∨ s.ns = .exhausted ∨ s.ns = .failed →
    exec (.negotiate target) s =
      if s.tp.isOpen = true then
        .next { s with target := target, nidx := 0, ident := { s.ident with valid := false }, ns := .preclose,
                       tp := { s.tp with wait := .close }, out := s.out ++ [.closeTp] }
      else
        .next { s with target := target, nidx := 0, ident := { s.ident with valid := false }, ns := .opening,
                       tp := { s.tp with baud := 9600, wait := .open_ }, rb := [],
                       out := s.out ++ [.openTp 9600] }

/-- A NEGOTIATE while anything is outstanding is refused with BUSY and changes only the result
(44_baud_negotiator.md, start). -/
def Obligations.NegotiateBusy : Prop :=
  ∀ (target : Word) (s : State), Legal s →
    s.cs ≠ .idle ∨ s.txq ≠ 0 ∨ nsInProgress s.ns = true ∨ s.tp.wait ≠ .none →
    exec (.negotiate target) s = .next { s with
      last := { ResultRecord.zero with valid := true, req := 3, status := .busy }
      out := s.out ++ [.result { ResultRecord.zero with valid := true, req := 3, status := .busy }] }

/-- OPEN_DONE(1): an attempt starts its probe, whatever `P_OPEN_PARAM` and `P_IDENT_LEN` are (log 11); a reopen ends the
negotiation with the target rate in use; an open that no negotiation waits for, as after a SESSION_RESET, only changes
the transport mirror (44_baud_negotiator.md R233, R244, R249). -/
def Obligations.OpenDoneSucceeds : Prop :=
  ∀ s : State, s.tp.wait = .open_ →
    (s.ns = .opening → exec (.openDone true) s = .next { s with
      tp := { s.tp with wait := .none, isOpen := true }
      edl := Config.identLen + 6
      pend := { kind := .recv, owner := .bn, op := 0x01, param := Config.openParam, len := Config.identLen,
                tcat := .baudAttempt, ackp := 0, rcsum := false }
      cs := .waitResp
      out := s.out ++ [.rxFlush, .txFrame (encodeCommand 0x01 Config.openParam)]
      txq := s.txq + 1
      tmr := 5000
      tmrEn := true
      ns := .probing }) ∧
    (s.ns = .reopening →
      let r : ResultRecord := { ResultRecord.zero with valid := true, req := 3, status := .ok, value := s.target }
      exec (.openDone true) s = .next { s with
        tp := { s.tp with wait := .none, isOpen := true }, curBaud := s.target, ns := .locked, last := r,
        out := s.out ++ [.result r] }) ∧
    (s.ns ≠ .opening → s.ns ≠ .reopening → nsReserved s.ns = false →
      exec (.openDone true) s = .next { s with tp := { s.tp with wait := .none, isOpen := true } })

/-- OPEN_DONE(0): a failed reopen ends the negotiation in FAILED; a failed open goes to the next candidate with no close;
an open that no negotiation waits for, as after a SESSION_RESET, only changes the transport mirror
(44_baud_negotiator.md R234, R245, R249). -/
def Obligations.OpenDoneFails : Prop :=
  ∀ s : State, s.tp.wait = .open_ →
    (s.ns = .reopening →
      let r : ResultRecord := { ResultRecord.zero with valid := true, req := 3, status := .transportError }
      exec (.openDone false) s = .next { s with
        tp := { s.tp with wait := .none, isOpen := false }, ns := .failed, last := r,
        out := s.out ++ [.result r] }) ∧
    (∀ b : Word, s.ns = .opening → (s.nidx, b) ∈ [((0 : BitVec 3), (115200 : Word)), (1, 57600), (2, 38400), (3, 19200)] →
      exec (.openDone false) s = .next { s with
        tp := { baud := b, wait := .open_, isOpen := false }, nidx := s.nidx + 1, rb := [],
        out := s.out ++ [.openTp b] }) ∧
    (s.ns = .opening → s.nidx = 4 →
      let r : ResultRecord := { ResultRecord.zero with valid := true, req := 3, status := .baudExhausted }
      exec (.openDone false) s = .next { s with
        tp := { s.tp with wait := .none, isOpen := false }, nidx := 5, ns := .exhausted, last := r,
        out := s.out ++ [.result r] }) ∧
    (s.ns ≠ .opening → s.ns ≠ .reopening → nsReserved s.ns = false →
      exec (.openDone false) s = .next { s with tp := { s.tp with wait := .none, isOpen := false } })

/-- CLOSE_DONE, for either value of its operand: before the first attempt, after a failed attempt, before the reopen, and
where no negotiation waits for it (44_baud_negotiator.md R237, R243, R248, R249). -/
def Obligations.CloseDoneArcs : Prop :=
  ∀ (ok : Bool) (s : State), s.tp.wait = .close →
    (∀ b : Word, s.ns = .preclose →
      (s.nidx, b) ∈ [((0 : BitVec 3), (9600 : Word)), (1, 115200), (2, 57600), (3, 38400), (4, 19200)] →
      exec (.closeDone ok) s = .next { s with
        tp := { baud := b, wait := .open_, isOpen := false }, txq := 0, rb := [], ns := .opening,
        out := s.out ++ [.openTp b] }) ∧
    (∀ b : Word, s.ns = .closingFail →
      (s.nidx, b) ∈ [((0 : BitVec 3), (115200 : Word)), (1, 57600), (2, 38400), (3, 19200)] →
      exec (.closeDone ok) s = .next { s with
        tp := { baud := b, wait := .open_, isOpen := false }, txq := 0, nidx := s.nidx + 1, rb := [],
        ns := .opening, out := s.out ++ [.openTp b] }) ∧
    (s.ns = .closingFail → s.nidx = 4 →
      let r : ResultRecord := { ResultRecord.zero with valid := true, req := 3, status := .baudExhausted }
      exec (.closeDone ok) s = .next { s with
        tp := { s.tp with wait := .none, isOpen := false }, txq := 0, nidx := 5, ns := .exhausted, last := r,
        out := s.out ++ [.result r] }) ∧
    (s.ns = .closingChg → exec (.closeDone ok) s = .next { s with
      tp := { baud := s.target, wait := .open_, isOpen := false }, txq := 0, rb := [], ns := .reopening,
      out := s.out ++ [.openTp s.target] }) ∧
    (s.ns ≠ .preclose → s.ns ≠ .closingFail → s.ns ≠ .closingChg → nsReserved s.ns = false →
      exec (.closeDone ok) s = .next { s with
        tp := { s.tp with wait := .none, isOpen := false }, txq := 0 })

/-- The identity packet that completes the probe: the identity registers, the locked rate, and either the end of the
negotiation or the change-baud command; a wrong checksum is only reported (44_baud_negotiator.md R235, R239, R240 and the
identity capture; for every `P_IDENT_LEN`, the layout is presumed, log 11; the arrival in one chunk is the model's,
log 6). -/
def Obligations.ProbeSucceeds : Prop :=
  ∀ (dev csum : Half) (payload : List Byte) (b : Word) (s : State), s.rb = [] → s.cs = .waitData →
    s.pend.owner = .bn → s.ns = .probing → s.edl = Config.identLen + 6 → payload.length = Config.identLen.toNat →
    (s.nidx, b) ∈ [((0 : BitVec 3), (9600 : Word)), (1, 115200), (2, 57600), (3, 38400), (4, 19200)] →
    ∃ t : State, exec (.dataIn dev payload csum) s = .next t ∧
      t.ident.valid = true ∧ t.ident.csum = checksumValid (dataFrame dev payload csum) ∧
      t.ident.fwVer = le32 (payload.getD 0 0) (payload.getD 1 0) (payload.getD 2 0) (payload.getD 3 0) ∧
      t.ident.isoSize = le32 (payload.getD 4 0) (payload.getD 5 0) (payload.getD 6 0) (payload.getD 7 0) ∧
      t.ident.serial.toList = (payload.drop 8).take 16 ∧
      (∀ k, k < payload.length → pbufGet t.pbuf k = payload[k]?) ∧
      (∀ k, payload.length ≤ k → pbufGet t.pbuf k = pbufGet s.pbuf k) ∧
      t.lockBaud = b ∧ t.target = s.target ∧ t.nidx = s.nidx ∧ t.tp = s.tp ∧ t.rb = [] ∧ t.edl = s.edl ∧
      (b = s.target → t.ns = .locked ∧ t.curBaud = b ∧ t.cs = .idle ∧ t.tmrEn = false ∧ t.txq = s.txq ∧
        t.last = { ResultRecord.zero with valid := true, req := 3, status := .ok, value := b } ∧
        t.out = s.out ++ [.result t.last]) ∧
      (b ≠ s.target → t.ns = .changing ∧ t.curBaud = s.curBaud ∧ t.cs = .waitResp ∧ t.tmr = 1000 ∧
        t.tmrEn = true ∧ t.txq = s.txq + 1 ∧ t.last = s.last ∧
        t.pend = { kind := .cmd, owner := .bn, op := 0x04, param := s.target, len := 0, tcat := .command,
                   ackp := 0, rcsum := false } ∧
        t.out = s.out ++ [.rxFlush, .txFrame (encodeCommand 0x04 s.target)])

/-- With no rate that opens, a negotiation tries the five rates in order and fails after exactly five attempts
(44_baud_negotiator.md, the negotiator's properties). -/
def Obligations.FiveFailedOpensExhaust : Prop :=
  ∀ (target : Word) (s : State), s.cs = .idle → s.txq = 0 → s.tp.wait = .none → s.tp.isOpen = false →
    s.ns = .untried ∨ s.ns = .locked ∨ s.ns = .exhausted ∨ s.ns = .failed →
    ∃ t : State, execAll (.negotiate target :: List.replicate 5 (.openDone false)) s = .next t ∧
      t.ns = .exhausted ∧ t.nidx = 5 ∧ t.tp.isOpen = false ∧ t.tp.wait = .none ∧ t.curBaud = s.curBaud ∧
      t.last = { ResultRecord.zero with valid := true, req := 3, status := .baudExhausted } ∧
      t.out = s.out ++ [.openTp 9600, .openTp 115200, .openTp 57600, .openTp 38400, .openTp 19200, .result t.last]

/-- The end-to-end scenario: a device that answers at 9600 and a target that differs from it. The negotiation locks at
9600, changes the rate, waits 200 ticks, reopens at the target and reports it, whatever the device-ids, the checksums, the
identity payload, `P_OPEN_PARAM` and `P_IDENT_LEN` (44_baud_negotiator.md, the negotiator's properties; the arrival of each
frame in one chunk is the model's, log 6; the parameters' bounds, log 11). -/
def Obligations.EndToEndNegotiation : Prop :=
  ∀ (target v w : Word) (d1 d2 d3 c1 c2 c3 : Half) (payload : List Byte) (s : State),
    Consistent s → s.cs = .idle → s.txq = 0 → s.tp.wait = .none → s.tp.isOpen = false → s.ns = .untried ∨ s.ns = .exhausted ∨ s.ns = .failed →
    target ≠ 9600 → payload.length = Config.identLen.toNat →
    ∃ t : State,
      execAll ([.negotiate target, .openDone true, .txDone true 12, .responseAck d1 v c1, .dataIn d2 payload c2,
        .txDone true 12, .responseAck d3 w c3] ++ List.replicate 200 .tick ++ [.closeDone true, .openDone true]) s =
        .next t ∧
      t.ns = .locked ∧ t.curBaud = target ∧ t.lockBaud = 9600 ∧ t.target = target ∧ t.nidx = 0 ∧
      t.tp = { isOpen := true, baud := target, wait := .none } ∧ t.cs = .idle ∧ t.txq = 0 ∧ t.tmrEn = false ∧
      t.rb = [] ∧ t.edl = Config.identLen + 6 ∧ t.ident.valid = true ∧
      t.last = { ResultRecord.zero with valid := true, req := 3, status := .ok, value := target } ∧
      t.out = s.out ++ [.openTp 9600, .rxFlush, .txFrame (encodeCommand 0x01 Config.openParam), .rxFlush,
        .txFrame (encodeCommand 0x04 target), .closeTp, .openTp target, .result t.last]

/-! ## Side channels, fault bits, output -/

/-- TP_ERROR: outside the probe it only sets `TERR` and notifies; during the probe it fails the attempt
(60_exceptions.md R273, 44_baud_negotiator.md R246). -/
def Obligations.TransportErrorEvent : Prop :=
  ∀ s : State,
    (s.ns ≠ .probing → nsReserved s.ns = false →
      exec .tpError s = .next { s with terr := true, out := s.out ++ [.terrNotify] }) ∧
    (s.ns = .probing → s.pend.owner = .bn →
      exec .tpError s = .next { s with
        cs := .idle, tmrEn := false, ns := .closingFail, tp := { s.tp with wait := .close },
        out := s.out ++ [.closeTp] })

/-- Events that answer nothing, and the reserved event codes, have no effect (60_exceptions.md, event sources). -/
def Obligations.EventsWithoutEffect : Prop :=
  ∀ (ok : Bool) (count : Word) (s : State), Legal s →
    exec .reservedEvt6 s = .next s ∧ exec .reservedEvt7 s = .next s ∧
    (s.txq = 0 → exec (.txDone ok count) s = .next s) ∧
    (s.tp.wait ≠ .open_ → exec (.openDone ok) s = .next s) ∧
    (s.tp.wait ≠ .close → exec (.closeDone ok) s = .next s) ∧
    (s.tmrEn = false → exec .tick s = .next s)

/-- No instruction clears a sticky fault bit (10_state.md, sticky fault bits), and none changes what waits at the input
port (the port is the model's, log 1). -/
def Obligations.FaultBitsSticky : Prop :=
  ∀ (i : Instr) (s t : State), exec i s = .next t →
    (s.rbOvf = true → t.rbOvf = true) ∧ (s.stateBad = true → t.stateBad = true) ∧ t.port = s.port

/-- A rule that reads a reserved encoding sets STATE_BAD and goes on (60_exceptions.md, fault bits; which conditions
read which registers is the model's, log 16). -/
def Obligations.ReservedEncodingSetsFaultBit : Prop :=
  ∀ s : State,
    (s.cs = .reserved → ∀ op p tmo, ∃ t, exec (.send op p tmo) s = .next t ∧ t.stateBad = true ∧
      t.last = { ResultRecord.zero with valid := true, req := 0, status := .busy }) ∧
    (∀ k, s.ns = .reserved k → ∃ t, exec .tpError s = .next t ∧ t.stateBad = true ∧ t.terr = true) ∧
    (s.tp.wait = .reserved → ∀ ok, ∃ t, exec (.closeDone ok) s = .next t ∧ t.stateBad = true ∧ t.tp = s.tp) ∧
    (s.pend.kind = .reserved → s.cs = .waitResp → s.pend.owner = .host → s.tmrEn = true → s.tmr = 1 →
      ∃ t, exec .tick s = .next t ∧ t.stateBad = true ∧ t.cs = .idle ∧ t.last.status = .timeout)

/-- Output only grows, and every frame leaves right after a receive flush of the same step (20_memory.md, ordering). -/
def Obligations.FramesFollowFlush : Prop :=
  ∀ (i : Instr) (s t : State), exec i s = .next t →
    ∃ new : List OutEvent, t.out = s.out ++ new ∧ framesFlushed .terrNotify new = true

/-- The step that opens the transport leaves `RB` empty (70_reset_and_hazards.md, reopen discards). -/
def Obligations.OpenEmptiesBuffer : Prop :=
  ∀ (i : Instr) (s t : State) (new : List OutEvent) (b : Word), exec i s = .next t → t.out = s.out ++ new →
    .openTp b ∈ new → t.rb = [] ∧ t.tp.baud = b ∧ t.tp.wait = .open_

/-- `PBUF` changes only where received bytes bind a Data frame to an outstanding receive, or where the host writes it for
DATA_OUT (20_memory.md, access to `PBUF`; the rows as chunks log 6, the host's write log 7). Received bytes change it only
with a data phase open or a receive waiting for its Response, and then only below the payload's length; the receive has
then ended, a host's with its OK result and that length. In a state of the invariant the operation is a receive. -/
def Obligations.PbufWrittenOnlyByBoundData : Prop :=
  ∀ (i : Instr) (s t : State), exec i s = .next t → t.pbuf ≠ s.pbuf →
    (∃ p, i = .dataOut p) ∨
    (((∃ bytes, i = .rxChunk bytes) ∨ (∃ d p c, i = .responseAck d p c) ∨ (∃ d p c, i = .responseNack d p c) ∨
      (∃ d p m c, i = .responseOtherMarker d p m c) ∨ (∃ d p c, i = .dataIn d p c)) ∧
      (s.cs = .waitData ∨ (s.cs = .waitResp ∧ s.pend.kind = .recv)) ∧
      (Consistent s → s.cs ≠ .idle ∧ s.pend.kind = .recv) ∧
      (∀ k, s.edl.toNat ≤ k + 6 → pbufGet t.pbuf k = pbufGet s.pbuf k) ∧
      t.cs ≠ .waitData ∧
      (s.pend.owner = .host → t.cs = .idle ∧ t.last.valid = true ∧ t.last.req = kindCode s.pend.kind ∧
        t.last.status = .ok ∧ t.last.len = s.edl - 6 ∧ .result t.last ∈ t.out))

/-- From every state the rules can leave, a step emits only results that the table of request kinds and status codes
allows (60_exceptions.md R261). -/
def Obligations.ResultsFollowTable : Prop :=
  ∀ s t : State, Consistent s → step s = .next t →
    ∃ new : List OutEvent, t.out = s.out ++ new ∧ new.all eventAllowed = true

/-! ## Reset, step, invariant -/

/-- Power-on reset (70_reset_and_hazards.md R290): every register of the spec. -/
def Obligations.ResetValues : Prop :=
  let s := State.reset
  s.rb = [] ∧ s.edl = 0 ∧ s.cs = .idle ∧
  s.pend = { kind := .cmd, owner := .host, op := 0, param := 0, len := 0, tcat := .command, ackp := 0,
             rcsum := false } ∧
  s.txq = 0 ∧ s.tmr = 0 ∧ s.tmrEn = false ∧
  s.last = { valid := false, req := 0, status := .ok, tcat := .command, nack := .none, value := 0, len := 0,
             rcsum := false, dcsum := false } ∧
  s.ns = .untried ∧ s.nidx = 0 ∧ s.target = 0 ∧ s.lockBaud = 0 ∧ s.curBaud = 0 ∧
  s.ident.fwVer = 0 ∧ s.ident.isoSize = 0 ∧ s.ident.serial.toList = List.replicate 16 0 ∧
  s.ident.valid = false ∧ s.ident.csum = false ∧
  s.tp = { isOpen := false, baud := 0, wait := .none } ∧ s.rbOvf = false ∧ s.stateBad = false ∧ s.terr = false ∧
  s.dropResp = 0 ∧ s.dropData = 0 ∧ s.noiseDrop = 0 ∧ ∀ a, pbufGet s.pbuf a = none

/-- SESSION_RESET (70_reset_and_hazards.md R291): the aborted operation and negotiation are reported in this order, an
open transport with no request outstanding is closed, everything but `TXQ`, the fault bits, `PBUF` and the transport
mirror is at its reset value, and the last result is the reset's OK; it is taken before every other event of its
instant. -/
def Obligations.SessionResetEffect : Prop :=
  (∀ i : Instr, i ≠ .sessionReset → instrPriority .sessionReset < instrPriority i) ∧
  ∀ s : State, Legal s →
    let aborted (req : BitVec 3) : ResultRecord :=
      { ResultRecord.zero with valid := true, req := req, status := .aborted }
    let done : ResultRecord := { ResultRecord.zero with valid := true, req := 4, status := .ok }
    let closes : Bool := s.tp.isOpen && decide (s.tp.wait = .none)
    exec .sessionReset s = .next { State.reset with
      txq := s.txq
      rbOvf := s.rbOvf
      stateBad := s.stateBad
      pbuf := s.pbuf
      tp := if closes then { s.tp with wait := .close } else s.tp
      last := done
      port := s.port
      out := s.out
        ++ (if s.cs ≠ .idle ∧ s.pend.owner = .host then [.result (aborted (kindCode s.pend.kind))] else [])
        ++ (if nsInProgress s.ns = true then [.result (aborted 3)] else [])
        ++ (if closes then [.closeTp] else [])
        ++ [.result done] }

/-- The arrival to be taken is `takeFirst`'s of the first instant that has any. When it is a record that decodes to a well-formed instruction, the step is that instruction in
the state without the arrival; power-on leaves the state after reset and emits nothing; a host's write of `PBUF` changes
the bytes it names and nothing else; with nothing waiting the state stays (the port is the model's, log 1; a write of
`PBUF` and power-on as arrivals, log 20 and log 21). -/
def Obligations.StepRunsDecodedInstruction : Prop :=
  (∀ (s : State) (p : Port) (bytes : List Byte) (rest : List (List PortItem)) (i : Instr),
    nextItem s.port = some (itemOf p bytes, rest) → decode p bytes = .ok i → i.wf = true →
      step s = exec i { s with port := rest }) ∧
  (∀ (s : State) (nbits w : Nat) (i : Instr), decodeTableWord nbits w = some i →
    step (s.withFetchWord nbits w) = exec i { s with port := [] :: s.port }) ∧
  (∀ (s : State) (rest : List (List PortItem)), nextItem s.port = some (.powerOn, rest) →
    step s = .next { State.reset with port := rest, out := s.out }) ∧
  (∀ (s : State) (rest : List (List PortItem)) (a : Nat) (bytes : List Byte),
    nextItem s.port = some (.pbufWrite a bytes, rest) → a + bytes.length ≤ Config.pbufCap →
      ∃ m : Memory, step s = .next { s with port := rest, pbuf := m } ∧
        (∀ k, k < bytes.length → pbufGet m (a + k) = bytes[k]?) ∧
        (∀ k, k < a ∨ a + bytes.length ≤ k → pbufGet m k = pbufGet s.pbuf k)) ∧
  (∀ s : State, nextItem s.port = none → step s = .next s) ∧
  nextItem [] = none ∧
  (∀ (now rest : List PortItem) (later : List (List PortItem)) (x : PortItem),
    takeFirst now = some (x, rest) → nextItem (now :: later) = some (x, rest :: later)) ∧
  (∀ (now : List PortItem) (later : List (List PortItem)),
    takeFirst now = none → nextItem (now :: later) = nextItem later) ∧
  (∀ now : List PortItem, takeFirst now = none ↔ now = [])

/-- Of the arrivals of one instant the first of the highest priority is taken, and the others wait in their order; an
instruction's priority is its place in the order of events: SESSION_RESET, then the transport's answers, then received
bytes, then TP_ERROR, then TICK, then every other request of the host, all of them in one place (60_exceptions.md,
simultaneous events). The places of the received-frame rows, of the wire commands and DATA_OUT as requests, of a `PBUF`
write, of power-on and of the reserved events are the model's (log 18). -/
def Obligations.HighestPriorityFirst : Prop :=
  (∀ (now rest : List PortItem) (x : PortItem), takeFirst now = some (x, rest) →
    ∃ before after : List PortItem, now = before ++ x :: after ∧ rest = before ++ after ∧
      (∀ y ∈ before, itemPriority x < itemPriority y) ∧ (∀ y ∈ after, itemPriority x ≤ itemPriority y)) ∧
  (∀ (p : Port) (bytes : List Byte) (i : Instr), decode p bytes = .ok i →
    itemPriority (itemOf p bytes) = instrPriority i) ∧
  (∀ (bytes : List Byte) (ok : Bool) (count : Word),
    instrPriority .sessionReset < instrPriority (.txDone ok count) ∧
    instrPriority (.txDone ok count) = instrPriority (.openDone ok) ∧
    instrPriority (.openDone ok) = instrPriority (.closeDone ok) ∧
    instrPriority (.closeDone ok) < instrPriority (.rxChunk bytes) ∧
    instrPriority (.rxChunk bytes) < instrPriority .tpError ∧
    instrPriority .tpError < instrPriority .tick) ∧
  (∀ i : Instr, portOf i = .host → i ≠ .sessionReset → instrPriority .tick < instrPriority i ∧
    ∀ j : Instr, portOf j = .host → j ≠ .sessionReset → instrPriority i = instrPriority j) ∧
  (∀ (dev mark csum : Half) (p : Word) (bytes payload : List Byte),
    instrPriority (.responseAck dev p csum) = instrPriority (.rxChunk bytes) ∧
    instrPriority (.responseNack dev p csum) = instrPriority (.rxChunk bytes) ∧
    instrPriority (.responseOtherMarker dev p mark csum) = instrPriority (.rxChunk bytes) ∧
    instrPriority (.dataIn dev payload csum) = instrPriority (.rxChunk bytes)) ∧
  instrPriority .tick < instrPriority .reservedEvt6 ∧ instrPriority .tick < instrPriority .reservedEvt7 ∧
  (∀ i : Instr, itemPriority .powerOn < instrPriority i) ∧
  (∀ (a : Nat) (bytes : List Byte), instrPriority .tick < itemPriority (.pbufWrite a bytes))

/-- The invariant holds after power-on reset. -/
def Obligations.InvariantAtReset : Prop := Consistent State.reset

/-- Every step keeps the invariant. -/
def Obligations.InvariantKept : Prop :=
  ∀ s t : State, Consistent s → step s = .next t → Consistent t

/-- From a state of the invariant a well-formed instruction faults only where the host is at fault: it reads a byte of
`PBUF` that it never wrote, with SENDPAY (log 13); and no instruction sets STATE_BAD. -/
def Obligations.InvariantStatesAreSafe : Prop :=
  (∀ (i : Instr) (s : State) (e : Fault), Consistent s → i.wf = true → exec i s = .fault e →
    ∃ (len tmo : Word) (k : Nat), i = .sendpay len tmo ∧ e = .pbufUnwritten k ∧ k < len.toNat ∧
      pbufGet s.pbuf k = none) ∧
  (∀ (i : Instr) (s t : State), Consistent s → exec i s = .next t → t.stateBad = s.stateBad)
end

