-- ==== Sys2Proof/Laws/Frames.lean ====
section
/-! SUPPORT. Little-endian splitting and assembly are inverse; the shape of the frames the block builds and
receives. -/

namespace Sys2Proof.Machine

theorem byteOf_toNat (v k : Nat) : (byteOf v k).toNat = v / 256 ^ k % 256 := by
  simp [byteOf]

/-- Assembly after splitting, 16 bits. -/
@[simp] theorem le16_byteOf (v : Half) : le16 (byteOf v.toNat 0) (byteOf v.toNat 1) = v := by
  apply BitVec.eq_of_toNat_eq
  have := v.isLt
  simp only [le16, BitVec.toNat_ofNat, byteOf_toNat]
  omega

/-- Assembly after splitting, 32 bits. -/
@[simp] theorem le32_byteOf (v : Word) :
    le32 (byteOf v.toNat 0) (byteOf v.toNat 1) (byteOf v.toNat 2) (byteOf v.toNat 3) = v := by
  apply BitVec.eq_of_toNat_eq
  have := v.isLt
  simp only [le32, BitVec.toNat_ofNat, byteOf_toNat]
  omega

@[simp] theorem bytesLE16_length (v : Half) : (bytesLE16 v).length = 2 := rfl
@[simp] theorem bytesLE32_length (v : Word) : (bytesLE32 v).length = 4 := rfl

theorem withChecksum_length (f : List Byte) : (withChecksum f).length = f.length + 2 := by
  simp [withChecksum]

/-- A frame built with its checksum is `checksum_valid`. -/
theorem checksumValid_of_parts (f : List Byte) (c : Half) :
    checksumValid (f ++ bytesLE16 c) = (checksum f == c) := by
  have h2 : (f ++ bytesLE16 c).length - 2 = f.length := by simp
  have h1 : (f ++ bytesLE16 c).length - 1 = f.length + 1 := by simp
  simp only [checksumValid, h2, h1, List.take_left, frameByte]
  simp [bytesLE16]

@[simp] theorem encodeCommand_length (op : Byte) (p : Word) : (encodeCommand op p).length = 12 := rfl

theorem encodeData_length (s : List Byte) : (encodeData s).length = s.length + 6 := by
  simp [encodeData, withChecksum]
  omega

@[simp] theorem responseFrame_length (dev : Half) (p : Word) (m c : Half) :
    (responseFrame dev p m c).length = 12 := rfl

theorem dataFrame_length (dev : Half) (s : List Byte) (c : Half) : (dataFrame dev s c).length = s.length + 6 := by
  simp [dataFrame]
  omega

/-- What the decoder reads from a Response frame with these fields. -/
theorem decodeResponse_responseFrame (dev : Half) (p : Word) (m c : Half) :
    decodeResponse (responseFrame dev p m c) =
      { dev := dev, param := p, mark := m, ack := acknowledged m,
        csumOk := checksumValid (responseFrame dev p m c) } := by
  have : (decodeResponse (responseFrame dev p m c)).dev = dev ∧
      (decodeResponse (responseFrame dev p m c)).param = p ∧
      (decodeResponse (responseFrame dev p m c)).mark = m ∧
      (decodeResponse (responseFrame dev p m c)).ack = acknowledged m :=
    ⟨le16_byteOf dev, le32_byteOf p, le16_byteOf m, congrArg acknowledged (le16_byteOf m)⟩
  generalize hd : decodeResponse (responseFrame dev p m c) = d at this
  obtain ⟨h1, h2, h3, h4⟩ := this
  have h5 : d.csumOk = checksumValid (responseFrame dev p m c) := by rw [← hd]; rfl
  cases d
  simp_all

/-- What the decoder reads from a Data frame with these fields. -/
theorem decodeData_dataFrame (dev : Half) (s : List Byte) (c : Half) :
    decodeData (dataFrame dev s c) =
      { dev := dev, payload := s, csumOk := checksumValid (dataFrame dev s c) } := by
  simp only [decodeData, dataFrame_length, Nat.add_sub_cancel]
  congr 1
  · simp [dataFrame, frameByte, bytesLE16]
  · simp [dataFrame, bytesLE16]

end Sys2Proof.Machine
end

