-- ==== Sys2Proof/Laws/Memory.lean ====
section
/-! SUPPORT. The laws of `PBUF`: every operation keeps its form and its range, and a read gives what was last
written. -/

namespace Sys2Proof

theorem Config.fitsPbuf_iff (n : Nat) : Config.fitsPbuf n = true ↔ n ≤ Config.pbufCap := by
  have h : 52116 ≤ Config.pbufCap := Nat.le_add_left _ _
  simp only [Config.fitsPbuf, Bool.or_eq_true, decide_eq_true_eq]
  generalize Config.pbufCap = c at h ⊢
  omega

theorem Config.fitsRbuf_iff (n : Nat) : Config.fitsRbuf n = true ↔ n ≤ Config.rbufCap := by
  have h : 52122 ≤ Config.rbufCap := Nat.le_add_left _ _
  simp only [Config.fitsRbuf, Bool.or_eq_true, decide_eq_true_eq]
  generalize Config.rbufCap = c at h ⊢
  omega

theorem Config.rbufFull_iff (n : Nat) : Config.rbufFull n = true ↔ n = Config.rbufCap := by
  have h : 52122 ≤ Config.rbufCap := Nat.le_add_left _ _
  simp only [Config.rbufFull, Bool.and_eq_true, decide_eq_true_eq]
  generalize Config.rbufCap = c at h ⊢
  omega

/-- R9's bounds, and the widths' (log 9). -/
theorem Config.pbufCap_bounds : 52116 ≤ Config.pbufCap ∧ Config.pbufCap < 4294967290 :=
  ⟨Nat.le_add_left _ _, Nat.add_lt_of_lt_sub Config.pbufSlack.isLt⟩

theorem Config.rbufCap_bounds : 52122 ≤ Config.rbufCap ∧ Config.rbufCap < 4294967296 :=
  ⟨Nat.le_add_left _ _, Nat.add_lt_of_lt_sub Config.rbufSlack.isLt⟩

/-- The identity packet has the bytes of the identity registers and fits every `PBUF`. -/
theorem Config.identLen_bounds : 24 ≤ Config.identLen.toNat ∧ Config.identLen.toNat ≤ 52116 := by
  have h := Config.identSlack.isLt
  rw [Config.identLen, BitVec.toNat_ofNat, Nat.mod_eq_of_lt (by omega)]
  omega

end Sys2Proof

namespace Sys2Proof.Machine

/-- A byte reads as it was last written. -/
theorem pbufGet_set (m : Memory) (a : Nat) (b : Byte) (k : Nat) :
    pbufGet (pbufSet m a b) k = if k = a then some b else pbufGet m k := by
  induction m with
  | nil => simp [pbufSet, pbufGet, eq_comm]
  | cons x m ih =>
    obtain ⟨j, c⟩ := x
    by_cases h1 : a < j
    · simp [pbufSet, h1, pbufGet, eq_comm (a := a)]
    · by_cases h2 : a = j
      · subst h2
        by_cases h3 : k = a <;> simp [pbufSet, pbufGet, h3, eq_comm (a := a)]
      · simp only [pbufSet, h1, h2, if_false, pbufGet, ih]
        by_cases h3 : j = k
        · have : k ≠ a := fun h => h2 (by omega)
          simp [h3, this]
        · simp [h3]

/-- Every address of a written memory is the written one or was there before. -/
theorem mem_pbufSet (m : Memory) (a : Nat) (b : Byte) {c : Host.Cell} (h : c ∈ pbufSet m a b) :
    c.1 = a ∨ c ∈ m := by
  induction m with
  | nil => simp [pbufSet] at h; simp [h]
  | cons x m ih =>
    obtain ⟨j, d⟩ := x
    simp only [pbufSet] at h
    split at h
    · rcases List.mem_cons.1 h with h | h
      · simp [h]
      · exact .inr h
    · split at h
      · rcases List.mem_cons.1 h with h | h
        · simp [h]
        · exact .inr (List.mem_cons_of_mem _ h)
      · rcases List.mem_cons.1 h with h | h
        · simp [h]
        · rcases ih h with h | h
          · exact .inl h
          · exact .inr (List.mem_cons_of_mem _ h)

/-- A one-byte write keeps the form. -/
theorem pbufSet_wf (m : Memory) (a : Nat) (b : Byte) (h : Memory.wf m) : Memory.wf (pbufSet m a b) := by
  induction m with
  | nil => simp [pbufSet, Memory.wf]
  | cons x m ih =>
    obtain ⟨j, d⟩ := x
    obtain ⟨hj, hm⟩ := List.pairwise_cons.1 h
    simp only [pbufSet]
    split
    · rename_i hlt
      refine List.pairwise_cons.2 ⟨?_, h⟩
      intro c hc
      rcases List.mem_cons.1 hc with hc | hc
      · simp [hc]; exact hlt
      · have := hj c hc
        simp only at this ⊢
        omega
    · split
      · rename_i h1 h2
        subst h2
        exact List.pairwise_cons.2 ⟨hj, hm⟩
      · rename_i h1 h2
        refine List.pairwise_cons.2 ⟨?_, ih hm⟩
        intro c hc
        rcases mem_pbufSet m a b hc with hc | hc
        · simp only [hc]; omega
        · exact hj c hc

/-- A write of bytes keeps the form. -/
theorem pbufSetBytes_wf (bs : List Byte) : ∀ (m : Memory) (a : Nat), Memory.wf m → Memory.wf (pbufSetBytes m a bs) := by
  induction bs with
  | nil => intro m a h; exact h
  | cons b bs ih => intro m a h; exact ih _ _ (pbufSet_wf m a b h)

/-- A write of bytes adds only addresses it writes. -/
theorem mem_pbufSetBytes (bs : List Byte) : ∀ (m : Memory) (a : Nat) (c : Host.Cell),
    c ∈ pbufSetBytes m a bs → c.1 < a + bs.length ∨ c ∈ m := by
  induction bs with
  | nil => intro m a c h; exact .inr h
  | cons b bs ih =>
    intro m a c h
    rcases ih _ _ c h with h | h
    · left; simp only [List.length_cons]; omega
    · rcases mem_pbufSet m a b h with h | h
      · left; simp only [List.length_cons]; omega
      · exact .inr h

/-- What a byte reads as after a write of bytes. -/
theorem pbufGet_setBytes (bs : List Byte) : ∀ (m : Memory) (a k : Nat),
    pbufGet (pbufSetBytes m a bs) k = if a ≤ k ∧ k < a + bs.length then bs[k - a]? else pbufGet m k := by
  induction bs with
  | nil =>
    intro m a k
    have : ¬ (a ≤ k ∧ k < a + 0) := by omega
    simp only [pbufSetBytes, List.length_nil, this, if_false]
  | cons b bs ih =>
    intro m a k
    simp only [pbufSetBytes, ih, pbufGet_set, List.length_cons]
    by_cases h1 : a + 1 ≤ k ∧ k < a + 1 + bs.length
    · have h2 : a ≤ k ∧ k < a + (bs.length + 1) := by omega
      have h3 : k - a = (k - (a + 1)) + 1 := by omega
      simp [h1, h2, h3]
    · by_cases h4 : k = a
      · subst h4; simp
      · have h2 : ¬ (a ≤ k ∧ k < a + (bs.length + 1)) := by omega
        simp only [h1, h2, h4, if_false]

/-- A read of bytes succeeds exactly when every byte has been written, and gives them. -/
theorem pbufGetBytes_ok (n : Nat) : ∀ (m : Memory) (a : Nat) (bs : List Byte),
    pbufGetBytes m a n = .ok bs ↔ bs.length = n ∧ ∀ k, k < n → pbufGet m (a + k) = bs[k]? := by
  induction n with
  | zero =>
    intro m a bs
    cases bs <;> simp [pbufGetBytes]
  | succ n ih =>
    intro m a bs
    simp only [pbufGetBytes]
    constructor
    · intro h
      split at h
      · cases h
      · rename_i b hb
        split at h
        · cases h
        · rename_i r hr
          cases h
          obtain ⟨hl, hk⟩ := (ih m (a + 1) r).1 hr
          refine ⟨by simp [hl], ?_⟩
          intro k hlt
          cases k with
          | zero => simpa using hb
          | succ k =>
            have := hk k (by omega)
            rw [show a + (k + 1) = a + 1 + k by omega]
            simpa using this
    · rintro ⟨hl, hk⟩
      cases bs with
      | nil => simp at hl
      | cons b r =>
        have h0 : pbufGet m a = some b := by simpa using hk 0 (by omega)
        have hr : pbufGetBytes m (a + 1) n = .ok r := by
          refine (ih m (a + 1) r).2 ⟨by simpa using hl, ?_⟩
          intro k hlt
          have := hk (k + 1) (by omega)
          rw [show a + 1 + k = a + (k + 1) by omega]
          simpa using this
        simp [h0, hr]

/-- A read of bytes that fails fails at an unwritten byte. -/
theorem pbufGetBytes_error (n : Nat) : ∀ (m : Memory) (a : Nat) (e : Fault),
    pbufGetBytes m a n = .error e → ∃ k, a ≤ k ∧ k < a + n ∧ e = .pbufUnwritten k := by
  induction n with
  | zero => intro m a e h; simp [pbufGetBytes] at h
  | succ n ih =>
    intro m a e h
    simp only [pbufGetBytes] at h
    split at h
    · exact ⟨a, Nat.le_refl a, by omega, by simpa using h.symm⟩
    · split at h
      · rename_i e' he
        obtain ⟨k, h1, h2, h3⟩ := ih m (a + 1) _ he
        exact ⟨k, by omega, by omega, by simpa [h3] using h.symm⟩
      · cases h

/-- `MemRead` says everything: it succeeds in range on written bytes, and gives them. -/
theorem memRead_ok (m : Memory) (a n : Nat) (bs : List Byte) :
    memRead m a n = .ok bs ↔
      a + n ≤ Config.pbufCap ∧ bs.length = n ∧ ∀ k, k < n → pbufGet m (a + k) = bs[k]? := by
  simp only [memRead]
  split
  · rename_i h
    have h' := (Config.fitsPbuf_iff _).1 h
    rw [pbufGetBytes_ok]
    exact ⟨fun h => ⟨h', h⟩, fun h => h.2⟩
  · rename_i h
    have h' : ¬ a + n ≤ Config.pbufCap := fun hh => h ((Config.fitsPbuf_iff _).2 hh)
    constructor
    · intro hh; cases hh
    · rintro ⟨h1, _⟩; exact absurd h1 h'

/-- `MemWrite` succeeds exactly in range. -/
theorem memWrite_ok (m : Memory) (a : Nat) (bs : List Byte) (m' : Memory) :
    memWrite m a bs = .ok m' ↔ a + bs.length ≤ Config.pbufCap ∧ m' = pbufSetBytes m a bs := by
  simp only [memWrite]
  split
  · rename_i h
    have h' := (Config.fitsPbuf_iff _).1 h
    simp [h', eq_comm]
  · rename_i h
    have h' : ¬ a + bs.length ≤ Config.pbufCap := fun hh => h ((Config.fitsPbuf_iff _).2 hh)
    simp [h']

/-- `MemWrite` keeps the form of `PBUF`. -/
theorem memWrite_wf {m m' : Memory} {a : Nat} {bs : List Byte} (h : memWrite m a bs = .ok m') (hm : Memory.wf m) :
    Memory.wf m' := by
  obtain ⟨_, rfl⟩ := (memWrite_ok m a bs m').1 h
  exact pbufSetBytes_wf bs m a hm

/-- `MemWrite` keeps `PBUF` in its range. -/
theorem memWrite_fits {m m' : Memory} {a : Nat} {bs : List Byte} (h : memWrite m a bs = .ok m')
    (hm : ∀ c ∈ m, c.1 < Config.pbufCap) : ∀ c ∈ m', c.1 < Config.pbufCap := by
  obtain ⟨hr, rfl⟩ := (memWrite_ok m a bs m').1 h
  intro c hc
  rcases mem_pbufSetBytes bs m a c hc with hc | hc
  · omega
  · exact hm c hc

/-- Power-on reset's `PBUF` has the form. -/
theorem reset_pbuf_wf : Memory.wf State.reset.pbuf := by decide

/-- The first bytes of what has just been written from address 0 read back. -/
theorem memRead_take_of_memWrite {m m' : Memory} {bs : List Byte} {n : Nat} (h : memWrite m 0 bs = .ok m')
    (hn : n ≤ bs.length) : memRead m' 0 n = .ok (bs.take n) := by
  obtain ⟨hr, rfl⟩ := (memWrite_ok m 0 bs m').1 h
  refine (memRead_ok _ _ _ _).2 ⟨by omega, by simp [hn], ?_⟩
  intro k hk
  rw [pbufGet_setBytes, if_pos (by omega), List.getElem?_take_of_lt hk]
  congr 1
  omega

/-- What has just been written from address 0 reads back. -/
theorem memRead_of_memWrite {m m' : Memory} {bs : List Byte} (h : memWrite m 0 bs = .ok m') :
    memRead m' 0 bs.length = .ok bs := by
  simpa using memRead_take_of_memWrite h (Nat.le_refl _)

end Sys2Proof.Machine
end

