-- ==== Sys2Proof/Laws/State.lean ====
section
/-! SUPPORT. One lemma per register and per named update of the state, all true by `rfl`: later proofs need not
unfold an update to read a register. -/

namespace Sys2Proof.Machine

/-! ### emit -/

@[simp] theorem emit_rb (e : OutEvent) (s : State) : (emit e s).rb = s.rb := rfl
@[simp] theorem emit_edl (e : OutEvent) (s : State) : (emit e s).edl = s.edl := rfl
@[simp] theorem emit_cs (e : OutEvent) (s : State) : (emit e s).cs = s.cs := rfl
@[simp] theorem emit_pend (e : OutEvent) (s : State) : (emit e s).pend = s.pend := rfl
@[simp] theorem emit_txq (e : OutEvent) (s : State) : (emit e s).txq = s.txq := rfl
@[simp] theorem emit_tmr (e : OutEvent) (s : State) : (emit e s).tmr = s.tmr := rfl
@[simp] theorem emit_tmrEn (e : OutEvent) (s : State) : (emit e s).tmrEn = s.tmrEn := rfl
@[simp] theorem emit_last (e : OutEvent) (s : State) : (emit e s).last = s.last := rfl
@[simp] theorem emit_ns (e : OutEvent) (s : State) : (emit e s).ns = s.ns := rfl
@[simp] theorem emit_nidx (e : OutEvent) (s : State) : (emit e s).nidx = s.nidx := rfl
@[simp] theorem emit_target (e : OutEvent) (s : State) : (emit e s).target = s.target := rfl
@[simp] theorem emit_lockBaud (e : OutEvent) (s : State) : (emit e s).lockBaud = s.lockBaud := rfl
@[simp] theorem emit_curBaud (e : OutEvent) (s : State) : (emit e s).curBaud = s.curBaud := rfl
@[simp] theorem emit_ident (e : OutEvent) (s : State) : (emit e s).ident = s.ident := rfl
@[simp] theorem emit_tp (e : OutEvent) (s : State) : (emit e s).tp = s.tp := rfl
@[simp] theorem emit_rbOvf (e : OutEvent) (s : State) : (emit e s).rbOvf = s.rbOvf := rfl
@[simp] theorem emit_stateBad (e : OutEvent) (s : State) : (emit e s).stateBad = s.stateBad := rfl
@[simp] theorem emit_terr (e : OutEvent) (s : State) : (emit e s).terr = s.terr := rfl
@[simp] theorem emit_dropResp (e : OutEvent) (s : State) : (emit e s).dropResp = s.dropResp := rfl
@[simp] theorem emit_dropData (e : OutEvent) (s : State) : (emit e s).dropData = s.dropData := rfl
@[simp] theorem emit_noiseDrop (e : OutEvent) (s : State) : (emit e s).noiseDrop = s.noiseDrop := rfl
@[simp] theorem emit_pbuf (e : OutEvent) (s : State) : (emit e s).pbuf = s.pbuf := rfl
@[simp] theorem emit_port (e : OutEvent) (s : State) : (emit e s).port = s.port := rfl
@[simp] theorem emit_out (e : OutEvent) (s : State) : (emit e s).out = s.out ++ [e] := rfl

/-! ### note -/

@[simp] theorem note_rb (b : Bool) (s : State) : (note b s).rb = s.rb := rfl
@[simp] theorem note_edl (b : Bool) (s : State) : (note b s).edl = s.edl := rfl
@[simp] theorem note_cs (b : Bool) (s : State) : (note b s).cs = s.cs := rfl
@[simp] theorem note_pend (b : Bool) (s : State) : (note b s).pend = s.pend := rfl
@[simp] theorem note_txq (b : Bool) (s : State) : (note b s).txq = s.txq := rfl
@[simp] theorem note_tmr (b : Bool) (s : State) : (note b s).tmr = s.tmr := rfl
@[simp] theorem note_tmrEn (b : Bool) (s : State) : (note b s).tmrEn = s.tmrEn := rfl
@[simp] theorem note_last (b : Bool) (s : State) : (note b s).last = s.last := rfl
@[simp] theorem note_ns (b : Bool) (s : State) : (note b s).ns = s.ns := rfl
@[simp] theorem note_nidx (b : Bool) (s : State) : (note b s).nidx = s.nidx := rfl
@[simp] theorem note_target (b : Bool) (s : State) : (note b s).target = s.target := rfl
@[simp] theorem note_lockBaud (b : Bool) (s : State) : (note b s).lockBaud = s.lockBaud := rfl
@[simp] theorem note_curBaud (b : Bool) (s : State) : (note b s).curBaud = s.curBaud := rfl
@[simp] theorem note_ident (b : Bool) (s : State) : (note b s).ident = s.ident := rfl
@[simp] theorem note_tp (b : Bool) (s : State) : (note b s).tp = s.tp := rfl
@[simp] theorem note_rbOvf (b : Bool) (s : State) : (note b s).rbOvf = s.rbOvf := rfl
@[simp] theorem note_stateBad (b : Bool) (s : State) : (note b s).stateBad = (s.stateBad || b) := rfl
@[simp] theorem note_terr (b : Bool) (s : State) : (note b s).terr = s.terr := rfl
@[simp] theorem note_dropResp (b : Bool) (s : State) : (note b s).dropResp = s.dropResp := rfl
@[simp] theorem note_dropData (b : Bool) (s : State) : (note b s).dropData = s.dropData := rfl
@[simp] theorem note_noiseDrop (b : Bool) (s : State) : (note b s).noiseDrop = s.noiseDrop := rfl
@[simp] theorem note_pbuf (b : Bool) (s : State) : (note b s).pbuf = s.pbuf := rfl
@[simp] theorem note_port (b : Bool) (s : State) : (note b s).port = s.port := rfl
@[simp] theorem note_out (b : Bool) (s : State) : (note b s).out = s.out := rfl

/-! ### noteCs -/

@[simp] theorem noteCs_rb (s : State) : (noteCs s).rb = s.rb := rfl
@[simp] theorem noteCs_edl (s : State) : (noteCs s).edl = s.edl := rfl
@[simp] theorem noteCs_cs (s : State) : (noteCs s).cs = s.cs := rfl
@[simp] theorem noteCs_pend (s : State) : (noteCs s).pend = s.pend := rfl
@[simp] theorem noteCs_txq (s : State) : (noteCs s).txq = s.txq := rfl
@[simp] theorem noteCs_tmr (s : State) : (noteCs s).tmr = s.tmr := rfl
@[simp] theorem noteCs_tmrEn (s : State) : (noteCs s).tmrEn = s.tmrEn := rfl
@[simp] theorem noteCs_last (s : State) : (noteCs s).last = s.last := rfl
@[simp] theorem noteCs_ns (s : State) : (noteCs s).ns = s.ns := rfl
@[simp] theorem noteCs_nidx (s : State) : (noteCs s).nidx = s.nidx := rfl
@[simp] theorem noteCs_target (s : State) : (noteCs s).target = s.target := rfl
@[simp] theorem noteCs_lockBaud (s : State) : (noteCs s).lockBaud = s.lockBaud := rfl
@[simp] theorem noteCs_curBaud (s : State) : (noteCs s).curBaud = s.curBaud := rfl
@[simp] theorem noteCs_ident (s : State) : (noteCs s).ident = s.ident := rfl
@[simp] theorem noteCs_tp (s : State) : (noteCs s).tp = s.tp := rfl
@[simp] theorem noteCs_rbOvf (s : State) : (noteCs s).rbOvf = s.rbOvf := rfl
@[simp] theorem noteCs_stateBad (s : State) : (noteCs s).stateBad = (s.stateBad || csReserved s.cs) := rfl
@[simp] theorem noteCs_terr (s : State) : (noteCs s).terr = s.terr := rfl
@[simp] theorem noteCs_dropResp (s : State) : (noteCs s).dropResp = s.dropResp := rfl
@[simp] theorem noteCs_dropData (s : State) : (noteCs s).dropData = s.dropData := rfl
@[simp] theorem noteCs_noiseDrop (s : State) : (noteCs s).noiseDrop = s.noiseDrop := rfl
@[simp] theorem noteCs_pbuf (s : State) : (noteCs s).pbuf = s.pbuf := rfl
@[simp] theorem noteCs_port (s : State) : (noteCs s).port = s.port := rfl
@[simp] theorem noteCs_out (s : State) : (noteCs s).out = s.out := rfl

/-! ### noteNs -/

@[simp] theorem noteNs_rb (s : State) : (noteNs s).rb = s.rb := rfl
@[simp] theorem noteNs_edl (s : State) : (noteNs s).edl = s.edl := rfl
@[simp] theorem noteNs_cs (s : State) : (noteNs s).cs = s.cs := rfl
@[simp] theorem noteNs_pend (s : State) : (noteNs s).pend = s.pend := rfl
@[simp] theorem noteNs_txq (s : State) : (noteNs s).txq = s.txq := rfl
@[simp] theorem noteNs_tmr (s : State) : (noteNs s).tmr = s.tmr := rfl
@[simp] theorem noteNs_tmrEn (s : State) : (noteNs s).tmrEn = s.tmrEn := rfl
@[simp] theorem noteNs_last (s : State) : (noteNs s).last = s.last := rfl
@[simp] theorem noteNs_ns (s : State) : (noteNs s).ns = s.ns := rfl
@[simp] theorem noteNs_nidx (s : State) : (noteNs s).nidx = s.nidx := rfl
@[simp] theorem noteNs_target (s : State) : (noteNs s).target = s.target := rfl
@[simp] theorem noteNs_lockBaud (s : State) : (noteNs s).lockBaud = s.lockBaud := rfl
@[simp] theorem noteNs_curBaud (s : State) : (noteNs s).curBaud = s.curBaud := rfl
@[simp] theorem noteNs_ident (s : State) : (noteNs s).ident = s.ident := rfl
@[simp] theorem noteNs_tp (s : State) : (noteNs s).tp = s.tp := rfl
@[simp] theorem noteNs_rbOvf (s : State) : (noteNs s).rbOvf = s.rbOvf := rfl
@[simp] theorem noteNs_stateBad (s : State) : (noteNs s).stateBad = (s.stateBad || nsReserved s.ns) := rfl
@[simp] theorem noteNs_terr (s : State) : (noteNs s).terr = s.terr := rfl
@[simp] theorem noteNs_dropResp (s : State) : (noteNs s).dropResp = s.dropResp := rfl
@[simp] theorem noteNs_dropData (s : State) : (noteNs s).dropData = s.dropData := rfl
@[simp] theorem noteNs_noiseDrop (s : State) : (noteNs s).noiseDrop = s.noiseDrop := rfl
@[simp] theorem noteNs_pbuf (s : State) : (noteNs s).pbuf = s.pbuf := rfl
@[simp] theorem noteNs_port (s : State) : (noteNs s).port = s.port := rfl
@[simp] theorem noteNs_out (s : State) : (noteNs s).out = s.out := rfl

/-! ### noteKind -/

@[simp] theorem noteKind_rb (s : State) : (noteKind s).rb = s.rb := rfl
@[simp] theorem noteKind_edl (s : State) : (noteKind s).edl = s.edl := rfl
@[simp] theorem noteKind_cs (s : State) : (noteKind s).cs = s.cs := rfl
@[simp] theorem noteKind_pend (s : State) : (noteKind s).pend = s.pend := rfl
@[simp] theorem noteKind_txq (s : State) : (noteKind s).txq = s.txq := rfl
@[simp] theorem noteKind_tmr (s : State) : (noteKind s).tmr = s.tmr := rfl
@[simp] theorem noteKind_tmrEn (s : State) : (noteKind s).tmrEn = s.tmrEn := rfl
@[simp] theorem noteKind_last (s : State) : (noteKind s).last = s.last := rfl
@[simp] theorem noteKind_ns (s : State) : (noteKind s).ns = s.ns := rfl
@[simp] theorem noteKind_nidx (s : State) : (noteKind s).nidx = s.nidx := rfl
@[simp] theorem noteKind_target (s : State) : (noteKind s).target = s.target := rfl
@[simp] theorem noteKind_lockBaud (s : State) : (noteKind s).lockBaud = s.lockBaud := rfl
@[simp] theorem noteKind_curBaud (s : State) : (noteKind s).curBaud = s.curBaud := rfl
@[simp] theorem noteKind_ident (s : State) : (noteKind s).ident = s.ident := rfl
@[simp] theorem noteKind_tp (s : State) : (noteKind s).tp = s.tp := rfl
@[simp] theorem noteKind_rbOvf (s : State) : (noteKind s).rbOvf = s.rbOvf := rfl
@[simp] theorem noteKind_stateBad (s : State) : (noteKind s).stateBad = (s.stateBad || kindReserved s.pend.kind) := rfl
@[simp] theorem noteKind_terr (s : State) : (noteKind s).terr = s.terr := rfl
@[simp] theorem noteKind_dropResp (s : State) : (noteKind s).dropResp = s.dropResp := rfl
@[simp] theorem noteKind_dropData (s : State) : (noteKind s).dropData = s.dropData := rfl
@[simp] theorem noteKind_noiseDrop (s : State) : (noteKind s).noiseDrop = s.noiseDrop := rfl
@[simp] theorem noteKind_pbuf (s : State) : (noteKind s).pbuf = s.pbuf := rfl
@[simp] theorem noteKind_port (s : State) : (noteKind s).port = s.port := rfl
@[simp] theorem noteKind_out (s : State) : (noteKind s).out = s.out := rfl

/-! ### noteTpWait -/

@[simp] theorem noteTpWait_rb (s : State) : (noteTpWait s).rb = s.rb := rfl
@[simp] theorem noteTpWait_edl (s : State) : (noteTpWait s).edl = s.edl := rfl
@[simp] theorem noteTpWait_cs (s : State) : (noteTpWait s).cs = s.cs := rfl
@[simp] theorem noteTpWait_pend (s : State) : (noteTpWait s).pend = s.pend := rfl
@[simp] theorem noteTpWait_txq (s : State) : (noteTpWait s).txq = s.txq := rfl
@[simp] theorem noteTpWait_tmr (s : State) : (noteTpWait s).tmr = s.tmr := rfl
@[simp] theorem noteTpWait_tmrEn (s : State) : (noteTpWait s).tmrEn = s.tmrEn := rfl
@[simp] theorem noteTpWait_last (s : State) : (noteTpWait s).last = s.last := rfl
@[simp] theorem noteTpWait_ns (s : State) : (noteTpWait s).ns = s.ns := rfl
@[simp] theorem noteTpWait_nidx (s : State) : (noteTpWait s).nidx = s.nidx := rfl
@[simp] theorem noteTpWait_target (s : State) : (noteTpWait s).target = s.target := rfl
@[simp] theorem noteTpWait_lockBaud (s : State) : (noteTpWait s).lockBaud = s.lockBaud := rfl
@[simp] theorem noteTpWait_curBaud (s : State) : (noteTpWait s).curBaud = s.curBaud := rfl
@[simp] theorem noteTpWait_ident (s : State) : (noteTpWait s).ident = s.ident := rfl
@[simp] theorem noteTpWait_tp (s : State) : (noteTpWait s).tp = s.tp := rfl
@[simp] theorem noteTpWait_rbOvf (s : State) : (noteTpWait s).rbOvf = s.rbOvf := rfl
@[simp] theorem noteTpWait_stateBad (s : State) : (noteTpWait s).stateBad = (s.stateBad || tpWaitReserved s.tp.wait) := rfl
@[simp] theorem noteTpWait_terr (s : State) : (noteTpWait s).terr = s.terr := rfl
@[simp] theorem noteTpWait_dropResp (s : State) : (noteTpWait s).dropResp = s.dropResp := rfl
@[simp] theorem noteTpWait_dropData (s : State) : (noteTpWait s).dropData = s.dropData := rfl
@[simp] theorem noteTpWait_noiseDrop (s : State) : (noteTpWait s).noiseDrop = s.noiseDrop := rfl
@[simp] theorem noteTpWait_pbuf (s : State) : (noteTpWait s).pbuf = s.pbuf := rfl
@[simp] theorem noteTpWait_port (s : State) : (noteTpWait s).port = s.port := rfl
@[simp] theorem noteTpWait_out (s : State) : (noteTpWait s).out = s.out := rfl

/-! ### emitResult -/

@[simp] theorem emitResult_rb (q : BitVec 3) (r : OpResult) (s : State) : (emitResult q r s).rb = s.rb := rfl
@[simp] theorem emitResult_edl (q : BitVec 3) (r : OpResult) (s : State) : (emitResult q r s).edl = s.edl := rfl
@[simp] theorem emitResult_cs (q : BitVec 3) (r : OpResult) (s : State) : (emitResult q r s).cs = s.cs := rfl
@[simp] theorem emitResult_pend (q : BitVec 3) (r : OpResult) (s : State) : (emitResult q r s).pend = s.pend := rfl
@[simp] theorem emitResult_txq (q : BitVec 3) (r : OpResult) (s : State) : (emitResult q r s).txq = s.txq := rfl
@[simp] theorem emitResult_tmr (q : BitVec 3) (r : OpResult) (s : State) : (emitResult q r s).tmr = s.tmr := rfl
@[simp] theorem emitResult_tmrEn (q : BitVec 3) (r : OpResult) (s : State) : (emitResult q r s).tmrEn = s.tmrEn := rfl
@[simp] theorem emitResult_last (q : BitVec 3) (r : OpResult) (s : State) : (emitResult q r s).last = resultOf q r := rfl
@[simp] theorem emitResult_ns (q : BitVec 3) (r : OpResult) (s : State) : (emitResult q r s).ns = s.ns := rfl
@[simp] theorem emitResult_nidx (q : BitVec 3) (r : OpResult) (s : State) : (emitResult q r s).nidx = s.nidx := rfl
@[simp] theorem emitResult_target (q : BitVec 3) (r : OpResult) (s : State) : (emitResult q r s).target = s.target := rfl
@[simp] theorem emitResult_lockBaud (q : BitVec 3) (r : OpResult) (s : State) : (emitResult q r s).lockBaud = s.lockBaud := rfl
@[simp] theorem emitResult_curBaud (q : BitVec 3) (r : OpResult) (s : State) : (emitResult q r s).curBaud = s.curBaud := rfl
@[simp] theorem emitResult_ident (q : BitVec 3) (r : OpResult) (s : State) : (emitResult q r s).ident = s.ident := rfl
@[simp] theorem emitResult_tp (q : BitVec 3) (r : OpResult) (s : State) : (emitResult q r s).tp = s.tp := rfl
@[simp] theorem emitResult_rbOvf (q : BitVec 3) (r : OpResult) (s : State) : (emitResult q r s).rbOvf = s.rbOvf := rfl
@[simp] theorem emitResult_stateBad (q : BitVec 3) (r : OpResult) (s : State) : (emitResult q r s).stateBad = s.stateBad := rfl
@[simp] theorem emitResult_terr (q : BitVec 3) (r : OpResult) (s : State) : (emitResult q r s).terr = s.terr := rfl
@[simp] theorem emitResult_dropResp (q : BitVec 3) (r : OpResult) (s : State) : (emitResult q r s).dropResp = s.dropResp := rfl
@[simp] theorem emitResult_dropData (q : BitVec 3) (r : OpResult) (s : State) : (emitResult q r s).dropData = s.dropData := rfl
@[simp] theorem emitResult_noiseDrop (q : BitVec 3) (r : OpResult) (s : State) : (emitResult q r s).noiseDrop = s.noiseDrop := rfl
@[simp] theorem emitResult_pbuf (q : BitVec 3) (r : OpResult) (s : State) : (emitResult q r s).pbuf = s.pbuf := rfl
@[simp] theorem emitResult_port (q : BitVec 3) (r : OpResult) (s : State) : (emitResult q r s).port = s.port := rfl
@[simp] theorem emitResult_out (q : BitVec 3) (r : OpResult) (s : State) : (emitResult q r s).out = s.out ++ [.result (resultOf q r)] := rfl

/-! ### resetRb -/

@[simp] theorem resetRb_rb (s : State) : (resetRb s).rb = [] := rfl
@[simp] theorem resetRb_edl (s : State) : (resetRb s).edl = s.edl := rfl
@[simp] theorem resetRb_cs (s : State) : (resetRb s).cs = s.cs := rfl
@[simp] theorem resetRb_pend (s : State) : (resetRb s).pend = s.pend := rfl
@[simp] theorem resetRb_txq (s : State) : (resetRb s).txq = s.txq := rfl
@[simp] theorem resetRb_tmr (s : State) : (resetRb s).tmr = s.tmr := rfl
@[simp] theorem resetRb_tmrEn (s : State) : (resetRb s).tmrEn = s.tmrEn := rfl
@[simp] theorem resetRb_last (s : State) : (resetRb s).last = s.last := rfl
@[simp] theorem resetRb_ns (s : State) : (resetRb s).ns = s.ns := rfl
@[simp] theorem resetRb_nidx (s : State) : (resetRb s).nidx = s.nidx := rfl
@[simp] theorem resetRb_target (s : State) : (resetRb s).target = s.target := rfl
@[simp] theorem resetRb_lockBaud (s : State) : (resetRb s).lockBaud = s.lockBaud := rfl
@[simp] theorem resetRb_curBaud (s : State) : (resetRb s).curBaud = s.curBaud := rfl
@[simp] theorem resetRb_ident (s : State) : (resetRb s).ident = s.ident := rfl
@[simp] theorem resetRb_tp (s : State) : (resetRb s).tp = s.tp := rfl
@[simp] theorem resetRb_rbOvf (s : State) : (resetRb s).rbOvf = s.rbOvf := rfl
@[simp] theorem resetRb_stateBad (s : State) : (resetRb s).stateBad = s.stateBad := rfl
@[simp] theorem resetRb_terr (s : State) : (resetRb s).terr = s.terr := rfl
@[simp] theorem resetRb_dropResp (s : State) : (resetRb s).dropResp = s.dropResp := rfl
@[simp] theorem resetRb_dropData (s : State) : (resetRb s).dropData = s.dropData := rfl
@[simp] theorem resetRb_noiseDrop (s : State) : (resetRb s).noiseDrop = s.noiseDrop := rfl
@[simp] theorem resetRb_pbuf (s : State) : (resetRb s).pbuf = s.pbuf := rfl
@[simp] theorem resetRb_port (s : State) : (resetRb s).port = s.port := rfl
@[simp] theorem resetRb_out (s : State) : (resetRb s).out = s.out := rfl

/-! ### openTransport -/

@[simp] theorem openTransport_rb (b : Word) (n : Ns) (s : State) : (openTransport b n s).rb = [] := rfl
@[simp] theorem openTransport_edl (b : Word) (n : Ns) (s : State) : (openTransport b n s).edl = s.edl := rfl
@[simp] theorem openTransport_cs (b : Word) (n : Ns) (s : State) : (openTransport b n s).cs = s.cs := rfl
@[simp] theorem openTransport_pend (b : Word) (n : Ns) (s : State) : (openTransport b n s).pend = s.pend := rfl
@[simp] theorem openTransport_txq (b : Word) (n : Ns) (s : State) : (openTransport b n s).txq = s.txq := rfl
@[simp] theorem openTransport_tmr (b : Word) (n : Ns) (s : State) : (openTransport b n s).tmr = s.tmr := rfl
@[simp] theorem openTransport_tmrEn (b : Word) (n : Ns) (s : State) : (openTransport b n s).tmrEn = s.tmrEn := rfl
@[simp] theorem openTransport_last (b : Word) (n : Ns) (s : State) : (openTransport b n s).last = s.last := rfl
@[simp] theorem openTransport_ns (b : Word) (n : Ns) (s : State) : (openTransport b n s).ns = n := rfl
@[simp] theorem openTransport_nidx (b : Word) (n : Ns) (s : State) : (openTransport b n s).nidx = s.nidx := rfl
@[simp] theorem openTransport_target (b : Word) (n : Ns) (s : State) : (openTransport b n s).target = s.target := rfl
@[simp] theorem openTransport_lockBaud (b : Word) (n : Ns) (s : State) : (openTransport b n s).lockBaud = s.lockBaud := rfl
@[simp] theorem openTransport_curBaud (b : Word) (n : Ns) (s : State) : (openTransport b n s).curBaud = s.curBaud := rfl
@[simp] theorem openTransport_ident (b : Word) (n : Ns) (s : State) : (openTransport b n s).ident = s.ident := rfl
@[simp] theorem openTransport_tp (b : Word) (n : Ns) (s : State) : (openTransport b n s).tp = { s.tp with baud := b, wait := .open_ } := rfl
@[simp] theorem openTransport_rbOvf (b : Word) (n : Ns) (s : State) : (openTransport b n s).rbOvf = s.rbOvf := rfl
@[simp] theorem openTransport_stateBad (b : Word) (n : Ns) (s : State) : (openTransport b n s).stateBad = s.stateBad := rfl
@[simp] theorem openTransport_terr (b : Word) (n : Ns) (s : State) : (openTransport b n s).terr = s.terr := rfl
@[simp] theorem openTransport_dropResp (b : Word) (n : Ns) (s : State) : (openTransport b n s).dropResp = s.dropResp := rfl
@[simp] theorem openTransport_dropData (b : Word) (n : Ns) (s : State) : (openTransport b n s).dropData = s.dropData := rfl
@[simp] theorem openTransport_noiseDrop (b : Word) (n : Ns) (s : State) : (openTransport b n s).noiseDrop = s.noiseDrop := rfl
@[simp] theorem openTransport_pbuf (b : Word) (n : Ns) (s : State) : (openTransport b n s).pbuf = s.pbuf := rfl
@[simp] theorem openTransport_port (b : Word) (n : Ns) (s : State) : (openTransport b n s).port = s.port := rfl
@[simp] theorem openTransport_out (b : Word) (n : Ns) (s : State) : (openTransport b n s).out = s.out ++ [.openTp b] := rfl

/-! ### closeTransport -/

@[simp] theorem closeTransport_rb (n : Ns) (s : State) : (closeTransport n s).rb = s.rb := rfl
@[simp] theorem closeTransport_edl (n : Ns) (s : State) : (closeTransport n s).edl = s.edl := rfl
@[simp] theorem closeTransport_cs (n : Ns) (s : State) : (closeTransport n s).cs = s.cs := rfl
@[simp] theorem closeTransport_pend (n : Ns) (s : State) : (closeTransport n s).pend = s.pend := rfl
@[simp] theorem closeTransport_txq (n : Ns) (s : State) : (closeTransport n s).txq = s.txq := rfl
@[simp] theorem closeTransport_tmr (n : Ns) (s : State) : (closeTransport n s).tmr = s.tmr := rfl
@[simp] theorem closeTransport_tmrEn (n : Ns) (s : State) : (closeTransport n s).tmrEn = s.tmrEn := rfl
@[simp] theorem closeTransport_last (n : Ns) (s : State) : (closeTransport n s).last = s.last := rfl
@[simp] theorem closeTransport_ns (n : Ns) (s : State) : (closeTransport n s).ns = n := rfl
@[simp] theorem closeTransport_nidx (n : Ns) (s : State) : (closeTransport n s).nidx = s.nidx := rfl
@[simp] theorem closeTransport_target (n : Ns) (s : State) : (closeTransport n s).target = s.target := rfl
@[simp] theorem closeTransport_lockBaud (n : Ns) (s : State) : (closeTransport n s).lockBaud = s.lockBaud := rfl
@[simp] theorem closeTransport_curBaud (n : Ns) (s : State) : (closeTransport n s).curBaud = s.curBaud := rfl
@[simp] theorem closeTransport_ident (n : Ns) (s : State) : (closeTransport n s).ident = s.ident := rfl
@[simp] theorem closeTransport_tp (n : Ns) (s : State) : (closeTransport n s).tp = { s.tp with wait := .close } := rfl
@[simp] theorem closeTransport_rbOvf (n : Ns) (s : State) : (closeTransport n s).rbOvf = s.rbOvf := rfl
@[simp] theorem closeTransport_stateBad (n : Ns) (s : State) : (closeTransport n s).stateBad = s.stateBad := rfl
@[simp] theorem closeTransport_terr (n : Ns) (s : State) : (closeTransport n s).terr = s.terr := rfl
@[simp] theorem closeTransport_dropResp (n : Ns) (s : State) : (closeTransport n s).dropResp = s.dropResp := rfl
@[simp] theorem closeTransport_dropData (n : Ns) (s : State) : (closeTransport n s).dropData = s.dropData := rfl
@[simp] theorem closeTransport_noiseDrop (n : Ns) (s : State) : (closeTransport n s).noiseDrop = s.noiseDrop := rfl
@[simp] theorem closeTransport_pbuf (n : Ns) (s : State) : (closeTransport n s).pbuf = s.pbuf := rfl
@[simp] theorem closeTransport_port (n : Ns) (s : State) : (closeTransport n s).port = s.port := rfl
@[simp] theorem closeTransport_out (n : Ns) (s : State) : (closeTransport n s).out = s.out ++ [.closeTp] := rfl

/-! ### issue -/

@[simp] theorem issue_rb (p : Pending) (t : Word) (f : List Byte) (s : State) : (issue p t f s).rb = s.rb := rfl
@[simp] theorem issue_edl (p : Pending) (t : Word) (f : List Byte) (s : State) : (issue p t f s).edl = s.edl := rfl
@[simp] theorem issue_cs (p : Pending) (t : Word) (f : List Byte) (s : State) : (issue p t f s).cs = .waitResp := rfl
@[simp] theorem issue_pend (p : Pending) (t : Word) (f : List Byte) (s : State) : (issue p t f s).pend = p := rfl
@[simp] theorem issue_txq (p : Pending) (t : Word) (f : List Byte) (s : State) : (issue p t f s).txq = s.txq + 1 := rfl
@[simp] theorem issue_tmr (p : Pending) (t : Word) (f : List Byte) (s : State) : (issue p t f s).tmr = t := rfl
@[simp] theorem issue_tmrEn (p : Pending) (t : Word) (f : List Byte) (s : State) : (issue p t f s).tmrEn = true := rfl
@[simp] theorem issue_last (p : Pending) (t : Word) (f : List Byte) (s : State) : (issue p t f s).last = s.last := rfl
@[simp] theorem issue_ns (p : Pending) (t : Word) (f : List Byte) (s : State) : (issue p t f s).ns = s.ns := rfl
@[simp] theorem issue_nidx (p : Pending) (t : Word) (f : List Byte) (s : State) : (issue p t f s).nidx = s.nidx := rfl
@[simp] theorem issue_target (p : Pending) (t : Word) (f : List Byte) (s : State) : (issue p t f s).target = s.target := rfl
@[simp] theorem issue_lockBaud (p : Pending) (t : Word) (f : List Byte) (s : State) : (issue p t f s).lockBaud = s.lockBaud := rfl
@[simp] theorem issue_curBaud (p : Pending) (t : Word) (f : List Byte) (s : State) : (issue p t f s).curBaud = s.curBaud := rfl
@[simp] theorem issue_ident (p : Pending) (t : Word) (f : List Byte) (s : State) : (issue p t f s).ident = s.ident := rfl
@[simp] theorem issue_tp (p : Pending) (t : Word) (f : List Byte) (s : State) : (issue p t f s).tp = s.tp := rfl
@[simp] theorem issue_rbOvf (p : Pending) (t : Word) (f : List Byte) (s : State) : (issue p t f s).rbOvf = s.rbOvf := rfl
@[simp] theorem issue_stateBad (p : Pending) (t : Word) (f : List Byte) (s : State) : (issue p t f s).stateBad = s.stateBad := rfl
@[simp] theorem issue_terr (p : Pending) (t : Word) (f : List Byte) (s : State) : (issue p t f s).terr = s.terr := rfl
@[simp] theorem issue_dropResp (p : Pending) (t : Word) (f : List Byte) (s : State) : (issue p t f s).dropResp = s.dropResp := rfl
@[simp] theorem issue_dropData (p : Pending) (t : Word) (f : List Byte) (s : State) : (issue p t f s).dropData = s.dropData := rfl
@[simp] theorem issue_noiseDrop (p : Pending) (t : Word) (f : List Byte) (s : State) : (issue p t f s).noiseDrop = s.noiseDrop := rfl
@[simp] theorem issue_pbuf (p : Pending) (t : Word) (f : List Byte) (s : State) : (issue p t f s).pbuf = s.pbuf := rfl
@[simp] theorem issue_port (p : Pending) (t : Word) (f : List Byte) (s : State) : (issue p t f s).port = s.port := rfl
@[simp] theorem issue_out (p : Pending) (t : Word) (f : List Byte) (s : State) : (issue p t f s).out = s.out ++ [.rxFlush, .txFrame f] := rfl

end Sys2Proof.Machine
end

