-- ==== Sys2Proof/Laws/Ops.lean ====
section
/-! SUPPORT. What each shared operation can do, said once: if it answers a state, one of the listed cases holds.
Later proofs cite these instead of unfolding the operations. -/

namespace Sys2Proof.Machine

/-! ## Sequencing -/

@[simp] theorem outcomeOf_next (r : Except Fault State) (t : State) : outcomeOf r = .next t ↔ r = .ok t := by
  cases r <;> simp [outcomeOf]

@[simp] theorem outcomeOf_fault (r : Except Fault State) (e : Fault) : outcomeOf r = .fault e ↔ r = .error e := by
  cases r <;> simp [outcomeOf]

@[simp] theorem outcomeOf_refused (r : Except Fault State) (e : Refusal) : outcomeOf r ≠ .refused e := by
  cases r <;> simp [outcomeOf]

@[simp] theorem andThen_ok_left (s : State) (f : State → Except Fault State) : andThen (.ok s) f = f s := rfl
@[simp] theorem andThen_error_left (e : Fault) (f : State → Except Fault State) :
    andThen (.error e) f = .error e := rfl

theorem andThen_ok {r : Except Fault State} {f : State → Except Fault State} {t : State} :
    andThen r f = .ok t ↔ ∃ u, r = .ok u ∧ f u = .ok t := by
  cases r <;> simp [andThen]

theorem andThen_error {r : Except Fault State} {f : State → Except Fault State} {e : Fault} :
    andThen r f = .error e ↔ r = .error e ∨ ∃ u, r = .ok u ∧ f u = .error e := by
  cases r <;> simp [andThen]

theorem andThen_assoc (r : Except Fault State) (f g : State → Except Fault State) :
    andThen (andThen r f) g = andThen r (fun s => andThen (f s) g) := by
  cases r <;> rfl

/-! ## Notes of reserved encodings -/

theorem note_false (s : State) : note false s = s := by
  simp [note]

theorem noteCs_legal {s : State} (h : s.cs ≠ .reserved) : noteCs s = s := by
  have : csReserved s.cs = false := by cases hc : s.cs <;> simp_all [csReserved]
  rw [noteCs, this, note_false]

theorem noteNs_legal {s : State} (h : nsReserved s.ns = false) : noteNs s = s := by
  rw [noteNs, h, note_false]

theorem noteKind_legal {s : State} (h : s.pend.kind ≠ .reserved) : noteKind s = s := by
  have : kindReserved s.pend.kind = false := by cases hc : s.pend.kind <;> simp_all [kindReserved]
  rw [noteKind, this, note_false]

theorem noteTpWait_legal {s : State} (h : s.tp.wait ≠ .reserved) : noteTpWait s = s := by
  have : tpWaitReserved s.tp.wait = false := by cases hc : s.tp.wait <;> simp_all [tpWaitReserved]
  rw [noteTpWait, this, note_false]

/-! ## The negotiator -/

/-- The length register of a receive of `len` payload bytes (10_state.md R23). -/
theorem edlOf_eq (len : Word) : edlOf len = len + 6 := by
  apply BitVec.eq_of_toNat_eq
  simp [edlOf, Config.dOvh]

/-- The probe's length register: a whole Data frame that fits every `RB`. -/
theorem edlOf_identLen : (edlOf Config.identLen).toNat = Config.identLen.toNat + 6 := by
  have h := Config.identLen_bounds.2
  rw [edlOf, Config.dOvh, BitVec.toNat_ofNat, Nat.mod_eq_of_lt (by omega)]

theorem candidate_ok {s : State} {b : Word} : candidate s = .ok b ↔ Config.baudList[s.nidx.toNat]? = some b := by
  simp only [candidate]
  split <;> simp_all

theorem openAttempt_ok {s t : State} (h : openAttempt s = .ok t) :
    ∃ b, Config.baudList[s.nidx.toNat]? = some b ∧ t = openTransport b .opening s := by
  simp only [openAttempt] at h
  split at h
  · rename_i b hb
    exact ⟨b, candidate_ok.1 hb, by simpa using h.symm⟩
  · cases h

theorem nextCandidate_ok {s t : State} (h : nextCandidate s = .ok t) :
    (s.nidx + 1 = Config.nAttempt ∧
      t = emitResult reqNegotiate { status := .baudExhausted } { s with nidx := s.nidx + 1, ns := .exhausted }) ∨
    (s.nidx + 1 ≠ Config.nAttempt ∧ ∃ b, Config.baudList[(s.nidx + 1).toNat]? = some b ∧
      t = openTransport b .opening { s with nidx := s.nidx + 1 }) := by
  simp only [nextCandidate] at h
  split at h
  · rename_i hn
    exact .inl ⟨hn, by simpa using h.symm⟩
  · rename_i hn
    exact .inr ⟨hn, openAttempt_ok h⟩

/-- The outcome of a negotiator-owned operation. -/
theorem bnOpDone_ok {r : OpResult} {s t : State} (h : bnOpDone r s = .ok t) :
    (s.ns = .probing ∧ r.status = .ok ∧ ∃ bytes b, memRead s.pbuf 0 24 = .ok bytes ∧
      Config.baudList[s.nidx.toNat]? = some b ∧
      ((b = s.target ∧ t = lockAt b { s with ident := identityOf bytes r.dcsum, lockBaud := b }) ∨
       (b ≠ s.target ∧ t = startChange { s with ident := identityOf bytes r.dcsum, lockBaud := b }))) ∨
    (s.ns = .probing ∧ r.status ≠ .ok ∧ t = closeTransport .closingFail s) ∨
    (s.ns = .changing ∧ r.status = .ok ∧ t = startSettle s) ∨
    (s.ns = .changing ∧ r.status ≠ .ok ∧ t = negotiationFailed r s) ∨
    (s.ns ≠ .probing ∧ s.ns ≠ .changing ∧ t = s) := by
  unfold bnOpDone at h
  split at h
  case h_1 hns =>
    split at h
    · rename_i hr
      left
      refine ⟨hns, hr, ?_⟩
      obtain ⟨u, hu, hf⟩ := andThen_ok.1 h
      simp only [captureIdentity] at hu
      split at hu
      · rename_i bytes hb
        cases hu
        split at hf
        · cases hf
        · rename_i b hc
          refine ⟨bytes, b, hb, candidate_ok.1 hc, ?_⟩
          split at hf
          · rename_i ht
            exact .inl ⟨ht, by simpa using hf.symm⟩
          · rename_i ht
            exact .inr ⟨ht, by simpa using hf.symm⟩
      · cases hu
    · rename_i hr
      exact .inr (.inl ⟨hns, hr, by simpa using h.symm⟩)
  case h_2 hns =>
    split at h
    · rename_i hr
      exact .inr (.inr (.inl ⟨hns, hr, by simpa using h.symm⟩))
    · rename_i hr
      exact .inr (.inr (.inr (.inl ⟨hns, hr, by simpa using h.symm⟩)))
  all_goals
    rename_i hns
    exact .inr (.inr (.inr (.inr ⟨by simp [hns], by simp [hns], by simpa using h.symm⟩)))

/-! ## Completion and delivery -/

/-- The one way an operation ends. -/
theorem complete_ok {r : OpResult} {s t : State} (h : complete r s = .ok t) :
    (s.pend.owner = .host ∧
      t = emitResult (kindCode s.pend.kind) r (noteKind { s with cs := .idle, tmrEn := false })) ∨
    (s.pend.owner = .bn ∧ bnOpDone r (noteNs { s with cs := .idle, tmrEn := false }) = .ok t) := by
  unfold complete at h
  split at h
  · rename_i ho
    exact .inl ⟨ho, by simpa using h.symm⟩
  · rename_i ho
    exact .inr ⟨ho, h⟩

theorem deliverResponse_ok {d : DecodedResponse} {s t : State} (h : deliverResponse d s = .ok t) :
    (s.cs ≠ .waitResp ∧ t = { noteCs s with dropResp := s.dropResp + 1 }) ∨
    (s.cs = .waitResp ∧ d.ack = false ∧ complete (nackResult d) s = .ok t) ∨
    (s.cs = .waitResp ∧ d.ack = true ∧ s.pend.kind = .recv ∧
      t = { s with cs := .waitData, pend := { s.pend with ackp := d.param, rcsum := d.csumOk } }) ∨
    (s.cs = .waitResp ∧ d.ack = true ∧ s.pend.kind ≠ .recv ∧
      complete { status := .ok, value := d.param, rcsum := d.csumOk } (noteKind s) = .ok t) := by
  unfold deliverResponse at h
  split at h
  · rename_i hc
    exact .inl ⟨hc, by simpa using h.symm⟩
  · rename_i hc
    have hc : s.cs = .waitResp := not_not.1 hc
    split at h
    · rename_i ha
      exact .inr (.inl ⟨hc, ha, h⟩)
    · rename_i ha
      have ha : d.ack = true := by simpa using ha
      split at h
      · rename_i hk
        exact .inr (.inr (.inl ⟨hc, ha, hk, by simpa using h.symm⟩))
      · rename_i hk
        exact .inr (.inr (.inr ⟨hc, ha, hk, h⟩))

theorem deliverData_ok {d : DecodedData} {s t : State} (h : deliverData d s = .ok t) :
    (s.cs ≠ .waitData ∧ t = { noteCs s with dropData := s.dropData + 1 }) ∨
    (s.cs = .waitData ∧ ∃ m, memWrite s.pbuf 0 d.payload = .ok m ∧
      complete { status := .ok, value := s.pend.ackp, len := BitVec.ofNat 32 d.payload.length,
                 rcsum := s.pend.rcsum, dcsum := d.csumOk } { s with pbuf := m } = .ok t) := by
  unfold deliverData at h
  split at h
  · rename_i hc
    exact .inl ⟨hc, by simpa using h.symm⟩
  · rename_i hc
    split at h
    · cases h
    · rename_i m hm
      exact .inr ⟨not_not.1 hc, m, hm, h⟩

/-! ## The receive side -/

/-- What holds of a state and survives the noise policy, each extraction and each stored byte survives a chunk. -/
theorem extractLoop_induct (P : State → Prop) (p : NoisePolicy)
    (hpol : ∀ s, P s → P (applyPolicy p s))
    (hresp : ∀ s t, P s → respReady s.rb = true → extractResp s = .ok t → P t)
    (hdata : ∀ s t, P s → dataReady s.edl s.rb = true → extractData s = .ok t → P t) :
    ∀ n s t, P s → extractLoop p n s = .ok t → P t := by
  intro n
  induction n with
  | zero => intro s t hs h; cases h; exact hs
  | succ n ih =>
    intro s t hs h
    simp only [extractLoop] at h
    have hp := hpol s hs
    split at h
    · rename_i hr
      obtain ⟨u, hu, hf⟩ := andThen_ok.1 h
      exact ih u t (hresp _ u hp hr hu) hf
    · split at h
      · rename_i hr
        obtain ⟨u, hu, hf⟩ := andThen_ok.1 h
        exact ih u t (hdata _ u hp hr hu) hf
      · cases h; exact hp

theorem feed_induct (P : State → Prop)
    (hstore : ∀ b s, P s → P (storeByte b s))
    (hpol : ∀ s, P s → P (applyPolicy Config.noisePolicy s))
    (hresp : ∀ s t, P s → respReady s.rb = true → extractResp s = .ok t → P t)
    (hdata : ∀ s t, P s → dataReady s.edl s.rb = true → extractData s = .ok t → P t) :
    ∀ bs s t, P s → feed bs s = .ok t → P t := by
  intro bs
  induction bs with
  | nil => intro s t hs h; cases h; exact hs
  | cons b bs ih =>
    intro s t hs h
    obtain ⟨u, hu, hf⟩ := andThen_ok.1 h
    exact ih u t (extractLoop_induct P _ hpol hresp hdata _ _ _ (hstore b s hs) hu) hf

/-! ## Requests -/

/-- R150's four outcomes. -/
theorem acceptRequest_ok {q : BitVec 3} {bad : Bool} {go : State → Except Fault State} {s t : State}
    (h : acceptRequest q bad go s = .ok t) :
    (corrBlocked s = true ∧ t = reject q .busy (noteNs (noteCs s))) ∨
    (corrBlocked s = false ∧ ready s = false ∧ t = reject q .notReady (noteNs (noteCs s))) ∨
    (corrBlocked s = false ∧ ready s = true ∧ bad = true ∧ t = reject q .badRequest (noteNs (noteCs s))) ∨
    (corrBlocked s = false ∧ ready s = true ∧ bad = false ∧ go (noteNs (noteCs s)) = .ok t) := by
  have hb : corrBlocked (noteNs (noteCs s)) = corrBlocked s := rfl
  have hr : ready (noteNs (noteCs s)) = ready s := rfl
  simp only [acceptRequest, hb, hr] at h
  split at h
  · rename_i h1
    exact .inl ⟨h1, by simpa using h.symm⟩
  · rename_i h1
    split at h
    · rename_i h2
      exact .inr (.inl ⟨by simpa using h1, by simpa using h2, by simpa using h.symm⟩)
    · rename_i h2
      split at h
      · rename_i h3
        exact .inr (.inr (.inl ⟨by simpa using h1, by simpa using h2, h3, by simpa using h.symm⟩))
      · rename_i h3
        exact .inr (.inr (.inr ⟨by simpa using h1, by simpa using h2, by simpa using h3, h⟩))

/-- An idle, unblocked, ready block is one with a locked, open link. -/
theorem accept_conditions (s : State) :
    (corrBlocked s = false ∧ ready s = true) ↔
      (s.cs = .idle ∧ s.txq = 0 ∧ s.ns = .locked ∧ s.tp.isOpen = true) := by
  simp only [corrBlocked, ready, bnBusy, Bool.or_eq_false_iff, Bool.and_eq_true, decide_eq_true_eq,
    decide_eq_false_iff_not, not_not]
  constructor
  · rintro ⟨⟨⟨h1, h2⟩, _⟩, h3, h4⟩
    exact ⟨h1, h2, h3, h4⟩
  · rintro ⟨h1, h2, h3, h4⟩
    exact ⟨⟨⟨h1, h2⟩, by simp [h3, nsInProgress]⟩, h3, h4⟩

/-- An accepted request goes on to its issue, with no fault bit touched. -/
theorem acceptRequest_go {q : BitVec 3} {bad : Bool} {go : State → Except Fault State} {s : State}
    (hcs : s.cs = .idle) (htx : s.txq = 0) (hns : s.ns = .locked) (htp : s.tp.isOpen = true) (hbad : bad = false) :
    acceptRequest q bad go s = go s := by
  obtain ⟨hb, hr⟩ := (accept_conditions s).2 ⟨hcs, htx, hns, htp⟩
  have hc : noteCs s = s := noteCs_legal (by simp [hcs])
  have hn : noteNs s = s := noteNs_legal (by simp [hns, nsReserved])
  simp only [acceptRequest, hc, hn, hb, hr, hbad]
  simp

end Sys2Proof.Machine
end

