-- ==== Sys2Proof/Laws/PerInstr.lean ====
section
/-! SUPPORT. Facts stated once per constructor of `Instr`. -/

namespace Sys2Proof.Laws

/-- The record of every instruction has at least one byte. -/
def EncodedNonempty.Statement : Instr → Prop := fun i => encode i ≠ []

theorem EncodedNonempty.openCmd (param : Word) :
    EncodedNonempty.Statement (.openCmd param) := by
  intro h; cases h

theorem EncodedNonempty.closeCmd (param : Word) :
    EncodedNonempty.Statement (.closeCmd param) := by
  intro h; cases h

theorem EncodedNonempty.usbCheck (param : Word) :
    EncodedNonempty.Statement (.usbCheck param) := by
  intro h; cases h

theorem EncodedNonempty.changeBaudrate (param : Word) :
    EncodedNonempty.Statement (.changeBaudrate param) := by
  intro h; cases h

theorem EncodedNonempty.cmosLed (param : Word) :
    EncodedNonempty.Statement (.cmosLed param) := by
  intro h; cases h

theorem EncodedNonempty.getEnrollCount (param : Word) :
    EncodedNonempty.Statement (.getEnrollCount param) := by
  intro h; cases h

theorem EncodedNonempty.checkEnrolled (param : Word) :
    EncodedNonempty.Statement (.checkEnrolled param) := by
  intro h; cases h

theorem EncodedNonempty.enrollStart (param : Word) :
    EncodedNonempty.Statement (.enrollStart param) := by
  intro h; cases h

theorem EncodedNonempty.enroll1 (param : Word) :
    EncodedNonempty.Statement (.enroll1 param) := by
  intro h; cases h

theorem EncodedNonempty.enroll2 (param : Word) :
    EncodedNonempty.Statement (.enroll2 param) := by
  intro h; cases h

theorem EncodedNonempty.enroll3 (param : Word) :
    EncodedNonempty.Statement (.enroll3 param) := by
  intro h; cases h

theorem EncodedNonempty.isPressFinger (param : Word) :
    EncodedNonempty.Statement (.isPressFinger param) := by
  intro h; cases h

theorem EncodedNonempty.deleteId (param : Word) :
    EncodedNonempty.Statement (.deleteId param) := by
  intro h; cases h

theorem EncodedNonempty.deleteAll (param : Word) :
    EncodedNonempty.Statement (.deleteAll param) := by
  intro h; cases h

theorem EncodedNonempty.verify (param : Word) :
    EncodedNonempty.Statement (.verify param) := by
  intro h; cases h

theorem EncodedNonempty.identify (param : Word) :
    EncodedNonempty.Statement (.identify param) := by
  intro h; cases h

theorem EncodedNonempty.verifyTemplate (param : Word) :
    EncodedNonempty.Statement (.verifyTemplate param) := by
  intro h; cases h

theorem EncodedNonempty.identifyTemplate (param : Word) :
    EncodedNonempty.Statement (.identifyTemplate param) := by
  intro h; cases h

theorem EncodedNonempty.captureFinger (param : Word) :
    EncodedNonempty.Statement (.captureFinger param) := by
  intro h; cases h

theorem EncodedNonempty.makeTemplate (param : Word) :
    EncodedNonempty.Statement (.makeTemplate param) := by
  intro h; cases h

theorem EncodedNonempty.getImage (param : Word) :
    EncodedNonempty.Statement (.getImage param) := by
  intro h; cases h

theorem EncodedNonempty.getRawImage (param : Word) :
    EncodedNonempty.Statement (.getRawImage param) := by
  intro h; cases h

theorem EncodedNonempty.getTemplate (param : Word) :
    EncodedNonempty.Statement (.getTemplate param) := by
  intro h; cases h

theorem EncodedNonempty.setTemplate (param : Word) :
    EncodedNonempty.Statement (.setTemplate param) := by
  intro h; cases h

theorem EncodedNonempty.responseAck (dev : Half) (param : Word) (csum : Half) :
    EncodedNonempty.Statement (.responseAck dev param csum) := by
  intro h; cases h

theorem EncodedNonempty.responseNack (dev : Half) (param : Word) (csum : Half) :
    EncodedNonempty.Statement (.responseNack dev param csum) := by
  intro h; cases h

theorem EncodedNonempty.responseOtherMarker (dev : Half) (param : Word) (marker csum : Half) :
    EncodedNonempty.Statement (.responseOtherMarker dev param marker csum) := by
  intro h; cases h

theorem EncodedNonempty.dataOut (payload : List Byte) :
    EncodedNonempty.Statement (.dataOut payload) := by
  intro h; cases h

theorem EncodedNonempty.dataIn (dev : Half) (payload : List Byte) (csum : Half) :
    EncodedNonempty.Statement (.dataIn dev payload csum) := by
  intro h; cases h

theorem EncodedNonempty.send (op : Byte) (param tmo : Word) :
    EncodedNonempty.Statement (.send op param tmo) := by
  intro h; cases h

theorem EncodedNonempty.recv (op : Byte) (param len tmo : Word) :
    EncodedNonempty.Statement (.recv op param len tmo) := by
  intro h; cases h

theorem EncodedNonempty.sendpay (len tmo : Word) :
    EncodedNonempty.Statement (.sendpay len tmo) := by
  intro h; cases h

theorem EncodedNonempty.negotiate (target : Word) :
    EncodedNonempty.Statement (.negotiate target) := by
  intro h; cases h

theorem EncodedNonempty.sessionReset :
    EncodedNonempty.Statement (.sessionReset) := by
  intro h; cases h

theorem EncodedNonempty.reservedReq5 :
    EncodedNonempty.Statement (.reservedReq5) := by
  intro h; cases h

theorem EncodedNonempty.reservedReq6 :
    EncodedNonempty.Statement (.reservedReq6) := by
  intro h; cases h

theorem EncodedNonempty.reservedReq7 :
    EncodedNonempty.Statement (.reservedReq7) := by
  intro h; cases h

theorem EncodedNonempty.rxChunk (bytes : List Byte) :
    EncodedNonempty.Statement (.rxChunk bytes) := by
  intro h; cases h

theorem EncodedNonempty.txDone (ok : Bool) (count : Word) :
    EncodedNonempty.Statement (.txDone ok count) := by
  intro h; cases h

theorem EncodedNonempty.openDone (ok : Bool) :
    EncodedNonempty.Statement (.openDone ok) := by
  intro h; cases h

theorem EncodedNonempty.closeDone (ok : Bool) :
    EncodedNonempty.Statement (.closeDone ok) := by
  intro h; cases h

theorem EncodedNonempty.tpError :
    EncodedNonempty.Statement (.tpError) := by
  intro h; cases h

theorem EncodedNonempty.tick :
    EncodedNonempty.Statement (.tick) := by
  intro h; cases h

theorem EncodedNonempty.reservedEvt6 :
    EncodedNonempty.Statement (.reservedEvt6) := by
  intro h; cases h

theorem EncodedNonempty.reservedEvt7 :
    EncodedNonempty.Statement (.reservedEvt7) := by
  intro h; cases h

end Sys2Proof.Laws
end

