-- ==== Sys2Proof/Laws/Receive.lean ====
section
/-! SUPPORT. What the receive side does with a chunk: delivery leaves the stream alone, the noise policy leaves a head
that may begin a frame, bytes of an incomplete frame are held, and a frame that arrives whole at an empty `RB` is
delivered. -/

namespace Sys2Proof.Machine

/-! ## Delivery leaves the stream alone -/

/-- The receive side of `s` and `t` is the same. -/
def SameStream (s t : State) : Prop :=
  t.rb = s.rb ∧ t.edl = s.edl ∧ t.noiseDrop = s.noiseDrop ∧ t.rbOvf = s.rbOvf

theorem complete_stream {r : OpResult} {s t : State} (h : complete r s = .ok t) : SameStream s t := by
  rcases complete_ok h with ⟨_, rfl⟩ | ⟨_, h⟩
  · exact ⟨rfl, rfl, rfl, rfl⟩
  · rcases bnOpDone_ok h with ⟨_, _, _, _, _, _, ⟨_, rfl⟩ | ⟨_, rfl⟩⟩ | ⟨_, _, rfl⟩ | ⟨_, _, rfl⟩ | ⟨_, _, rfl⟩ |
      ⟨_, _, rfl⟩ <;> exact ⟨rfl, rfl, rfl, rfl⟩

theorem deliverResponse_stream {d : DecodedResponse} {s t : State} (h : deliverResponse d s = .ok t) :
    SameStream s t := by
  rcases deliverResponse_ok h with ⟨_, rfl⟩ | ⟨_, _, h⟩ | ⟨_, _, _, rfl⟩ | ⟨_, _, _, h⟩
  · exact ⟨rfl, rfl, rfl, rfl⟩
  · exact complete_stream h
  · exact ⟨rfl, rfl, rfl, rfl⟩
  · have := complete_stream h; exact this

theorem deliverData_stream {d : DecodedData} {s t : State} (h : deliverData d s = .ok t) : SameStream s t := by
  rcases deliverData_ok h with ⟨_, rfl⟩ | ⟨_, m, _, h⟩
  · exact ⟨rfl, rfl, rfl, rfl⟩
  · have := complete_stream h; exact this

/-! ## Readiness and the noise policy -/

theorem respReady_length {rb : List Byte} (h : respReady rb = true) : 12 ≤ rb.length := by
  simp only [respReady, Bool.and_eq_true, decide_eq_true_eq] at h
  exact h.1

theorem dataReady_length {edl : Word} {rb : List Byte} (h : dataReady edl rb = true) :
    6 ≤ edl.toNat ∧ edl.toNat ≤ rb.length := by
  simp only [dataReady, Bool.and_eq_true, decide_eq_true_eq] at h
  exact h.1

/-- What is left after the noise is dropped is empty or may begin a frame. -/
theorem drop_noiseLength (edl : Word) (rb : List Byte) :
    rb.drop (noiseLength edl rb) = [] ∨ headMayStart edl (rb.drop (noiseLength edl rb)) = true := by
  induction rb with
  | nil => exact .inl rfl
  | cons a rb ih =>
    by_cases h : headMayStart edl (a :: rb) = true
    · right; simp [noiseLength, h]
    · simpa [noiseLength, h] using ih

/-- With nothing to extract and no noise at the head, extraction changes nothing. -/
theorem extractLoop_idle {s : State} (n : Nat) (hr : respReady s.rb = false) (hd : dataReady s.edl s.rb = false)
    (hh : s.rb = [] ∨ headMayStart s.edl s.rb = true) : extractLoop Config.noisePolicy n s = .ok s := by
  cases n with
  | zero => rfl
  | succ n =>
    have hp : applyPolicy Config.noisePolicy s = s := by
      have : noiseLength s.edl s.rb = 0 := by
        rcases hh with h | h
        · rw [h]; rfl
        · cases hb : s.rb with
          | nil => rfl
          | cons a l => rw [hb] at h; simp [noiseLength, h]
      unfold applyPolicy
      rw [this]
    simp [extractLoop, hp, hr, hd]

theorem extractLoop_nil {s : State} (n : Nat) (h : s.rb = []) : extractLoop Config.noisePolicy n s = .ok s :=
  extractLoop_idle n (by rw [h]; rfl) (by rw [h]; simp [dataReady, startsWith]) (.inl h)

/-! ## Incomplete frames are held -/

/-- The last byte of a chunk comes after all the others. -/
theorem feed_snoc (bs : List Byte) (b : Byte) (s : State) :
    feed (bs ++ [b]) s = andThen (feed bs s) (fun u => extractAll (storeByte b u)) := by
  induction bs generalizing s with
  | nil =>
    simp only [List.nil_append, feed, andThen_ok_left]
    cases extractAll (storeByte b s) <;> rfl
  | cons x bs ih =>
    simp only [List.cons_append, feed, andThen_assoc]
    congr 1
    funext u
    exact ih u

/-- Bytes that complete no frame and begin one are held. -/
theorem feed_held : ∀ (bs : List Byte) (s : State),
    (∀ l, l <+: bs → l ≠ [] → respReady (s.rb ++ l) = false ∧ dataReady s.edl (s.rb ++ l) = false ∧
      headMayStart s.edl (s.rb ++ l) = true) →
    s.rb.length + bs.length ≤ Config.rbufCap → feed bs s = .ok { s with rb := s.rb ++ bs } := by
  intro bs
  induction bs with
  | nil => intro s _ _; simp [feed]
  | cons b bs ih =>
    intro s h hl
    have hst : storeByte b s = { s with rb := s.rb ++ [b] } := by
      unfold storeByte
      rw [if_neg]
      intro hh
      have := (Config.rbufFull_iff _).1 hh
      simp only [List.length_cons] at hl
      omega
    obtain ⟨h1, h2, h3⟩ := h [b] (by simp) (by simp)
    have hex : extractAll { s with rb := s.rb ++ [b] } = .ok { s with rb := s.rb ++ [b] } :=
      extractLoop_idle _ h1 h2 (.inr h3)
    simp only [feed, hst, hex, andThen_ok_left]
    rw [ih]
    · simp
    · intro l hl' _
      simpa using h (b :: l) (by simpa using hl') (by simp)
    · simp only [List.length_append, List.length_cons, List.length_nil] at hl ⊢
      omega

/-- The start of a Response frame is not ready and may begin a frame. -/
theorem response_start (edl : Word) (f l : List Byte) (hl : l <+: 0x55 :: 0xAA :: f) (hne : l ≠ [])
    (hs : l.length < 12) : respReady l = false ∧ dataReady edl l = false ∧ headMayStart edl l = true := by
  obtain ⟨r, hr⟩ := hl
  match l with
  | [] => exact absurd rfl hne
  | [a] =>
    simp at hr
    simp [respReady, dataReady, headMayStart, startsWith, hr.1, Config.crMark0]
  | a :: b :: l =>
    simp at hr
    obtain ⟨rfl, rfl, _⟩ := hr
    refine ⟨?_, ?_, ?_⟩
    · have : ¬ Config.crLen ≤ (85#8 :: 170#8 :: l : List Byte).length := Nat.not_le.2 hs
      simp only [respReady, this, decide_false, Bool.false_and]
    · simp [dataReady, startsWith, Config.dMark0]
    · simp [headMayStart, Config.crMark0, Config.crMark1]

/-- The start of a Data frame of the expected length is not ready and may begin a frame. -/
theorem data_start (edl : Word) (f l : List Byte) (he : 6 ≤ edl.toNat) (hl : l <+: 0x5A :: 0xA5 :: f) (hne : l ≠ [])
    (hs : l.length < edl.toNat) : respReady l = false ∧ dataReady edl l = false ∧ headMayStart edl l = true := by
  obtain ⟨r, hr⟩ := hl
  match l with
  | [] => exact absurd rfl hne
  | [a] =>
    simp at hr
    simp [respReady, dataReady, headMayStart, startsWith, hr.1, Config.crMark0, Config.dMark0, Config.dOvh, he]
  | a :: b :: l =>
    simp at hr
    obtain ⟨rfl, rfl, _⟩ := hr
    refine ⟨?_, ?_, ?_⟩
    · simp [respReady, startsWith, Config.crMark0]
    · have : ¬ edl.toNat ≤ (90#8 :: 165#8 :: l : List Byte).length := Nat.not_le.2 hs
      simp only [dataReady, this, decide_false, Bool.false_and, Bool.and_false]
    · simp [headMayStart, Config.dMark0, Config.dMark1, Config.crMark0, Config.dOvh, he]

/-! ## A frame that arrives whole -/

/-- A Response frame that arrives whole at an empty `RB` is delivered. -/
theorem feed_responseFrame (dev mark csum : Half) (param : Word) (s : State) (hrb : s.rb = []) :
    feed (responseFrame dev param mark csum) s =
      deliverResponse
        { dev := dev, param := param, mark := mark, ack := acknowledged mark,
          csumOk := checksumValid (responseFrame dev param mark csum) } s := by
  have hcap := Config.rbufCap_bounds
  have hlen := responseFrame_length dev param mark csum
  have hfr : responseFrame dev param mark csum = 0x55 :: 0xAA :: (responseFrame dev param mark csum).drop 2 := rfl
  have hdec := decodeResponse_responseFrame dev param mark csum
  have hready : respReady (responseFrame dev param mark csum) = true := rfl
  generalize responseFrame dev param mark csum = F at *
  have hne : F ≠ [] := by intro h; rw [h] at hlen; simp at hlen
  have hsplit := (List.dropLast_append_getLast hne).symm
  have hheld : feed F.dropLast s = .ok { s with rb := F.dropLast } := by
    rw [feed_held]
    · rw [hrb]; rfl
    · intro l hp hl
      rw [hrb]
      have h12 := hp.length_le
      have hp' : l <+: F := hp.trans (List.dropLast_prefix F)
      rw [hfr] at hp'
      simp only [List.length_dropLast] at h12
      exact response_start _ _ _ hp' hl (by simp only [List.nil_append]; omega)
    · rw [hrb]; simp only [List.length_dropLast, List.length_nil]; omega
  have hst : storeByte (F.getLast hne) { s with rb := F.dropLast } = { s with rb := F } := by
    unfold storeByte
    rw [if_neg]
    · show ({ s with rb := F.dropLast ++ [F.getLast hne] } : State) = _
      rw [← hsplit]
    · intro hh
      have := (Config.rbufFull_iff _).1 hh
      simp only [List.length_dropLast] at this
      omega
  conv_lhs => rw [hsplit]
  rw [feed_snoc, hheld, andThen_ok_left, hst]
  have hpol : applyPolicy Config.noisePolicy { s with rb := F } = { s with rb := F } := by
    have : noiseLength s.edl F = 0 := by rw [hfr]; simp [noiseLength, headMayStart, Config.crMark0, Config.crMark1]
    unfold applyPolicy
    simp only [this]
  have hdrop : F.drop Config.crLen = [] := List.drop_eq_nil_of_le (by rw [hlen]; decide)
  have htake : F.take Config.crLen = F := List.take_of_length_le (by rw [hlen]; decide)
  have hs : ({ s with rb := [] } : State) = s := by rw [← hrb]
  show extractLoop _ F.length _ = _
  rw [hlen, extractLoop]
  simp only [hpol, hready, if_true, extractResp, hdrop, htake, hdec, hs]
  generalize hres : deliverResponse _ s = r
  cases r with
  | error e => rfl
  | ok v => exact extractLoop_nil _ ((deliverResponse_stream hres).1.trans hrb)

/-- A Data frame of the expected length that arrives whole at an empty `RB` is delivered. -/
theorem feed_dataFrame (dev csum : Half) (payload : List Byte) (s : State) (hrb : s.rb = [])
    (hedl : s.edl.toNat = payload.length + 6) (hcap : payload.length + 6 ≤ Config.rbufCap) :
    feed (dataFrame dev payload csum) s =
      deliverData { dev := dev, payload := payload, csumOk := checksumValid (dataFrame dev payload csum) } s := by
  have hlen := dataFrame_length dev payload csum
  have hfr : dataFrame dev payload csum = 0x5A :: 0xA5 :: (dataFrame dev payload csum).drop 2 := rfl
  have hdec := decodeData_dataFrame dev payload csum
  generalize dataFrame dev payload csum = F at *
  have hne : F ≠ [] := by intro h; rw [h] at hlen; simp at hlen
  have hsplit := (List.dropLast_append_getLast hne).symm
  have hheld : feed F.dropLast s = .ok { s with rb := F.dropLast } := by
    rw [feed_held]
    · rw [hrb]; rfl
    · intro l hp hl
      rw [hrb]
      have h12 := hp.length_le
      have hp' : l <+: F := hp.trans (List.dropLast_prefix F)
      rw [hfr] at hp'
      simp only [List.length_dropLast] at h12
      exact data_start _ _ _ (by omega) hp' hl (by simp only [List.nil_append]; omega)
    · rw [hrb]; simp only [List.length_dropLast, List.length_nil]; omega
  have hst : storeByte (F.getLast hne) { s with rb := F.dropLast } = { s with rb := F } := by
    unfold storeByte
    rw [if_neg]
    · show ({ s with rb := F.dropLast ++ [F.getLast hne] } : State) = _
      rw [← hsplit]
    · intro hh
      have := (Config.rbufFull_iff _).1 hh
      simp only [List.length_dropLast] at this
      omega
  conv_lhs => rw [hsplit]
  rw [feed_snoc, hheld, andThen_ok_left, hst]
  have hpol : applyPolicy Config.noisePolicy { s with rb := F } = { s with rb := F } := by
    have : noiseLength s.edl F = 0 := by
      rw [hfr]
      have h6 : 6 ≤ payload.length + 6 := by omega
      simp [noiseLength, headMayStart, Config.dMark0, Config.dMark1, Config.crMark0, Config.dOvh, hedl, h6]
    unfold applyPolicy
    simp only [this]
  have hr : respReady F = false := by rw [hfr]; simp [respReady, startsWith, Config.crMark0]
  have hd : dataReady s.edl F = true := by
    simp only [dataReady, hedl, hlen]
    rw [hfr]
    simp [startsWith, Config.dMark0, Config.dMark1, Config.dOvh]
  have hdrop : F.drop s.edl.toNat = [] := List.drop_eq_nil_of_le (by omega)
  have htake : F.take s.edl.toNat = F := List.take_of_length_le (by omega)
  have hs : ({ s with rb := [] } : State) = s := by rw [← hrb]
  show extractLoop _ F.length _ = _
  rw [hlen, extractLoop]
  simp only [hpol, hr, hd, if_true, extractData, hdrop, htake, hdec, hs, Bool.false_eq_true, if_false]
  generalize hres : deliverData _ s = r
  cases r with
  | error e => rfl
  | ok v => exact extractLoop_nil _ ((deliverData_stream hres).1.trans hrb)

end Sys2Proof.Machine
end

