-- ==== Sys2Proof/Tests/Slice0.lean ====
section
/-! SUPPORT. The model's own tests: what the well-formedness checks refuse, the instruction of a word written out from
the spec's encodings for every row of the opcode table, single steps taken from the vectors of 95_test_vectors.md, and
for every statement with hypotheses a state and operands that meet them. -/

namespace Sys2Proof.Tests

open Sys2Proof Sys2Proof.Machine

/-! ## States and projections -/

/-- The next state of an outcome. -/
def nextOf (o : Host.Outcome State Fault Refusal) : Option State :=
  match o with
  | .next t => some t
  | .fault _ | .refused _ => none

/-- The fault of an outcome. -/
def faultOf (o : Host.Outcome State Fault Refusal) : Option Fault :=
  match o with
  | .fault e => some e
  | .next _ | .refused _ => none

/-- Locked at 9600, nothing outstanding. -/
def locked : State :=
  { State.reset with
    ns := .locked, target := 9600, lockBaud := 9600, curBaud := 9600,
    tp := { isOpen := true, baud := 9600, wait := .none } }

/-- An operation of the host waits for its Response; its write is answered; one tick is left. -/
def waiting (k : PendKind) : State :=
  { locked with
    cs := .waitResp, pend := { Pending.zero with kind := k, tcat := if k = .cmd then .command else .bulk },
    edl := if k = .recv then 6 else 0, tmr := 1, tmrEn := true }

/-- A receive of no bytes waits for its Data frame. -/
def waitingData : State := { waiting .recv with cs := .waitData }

/-- The probe at candidate `k` waits for its Response. -/
def probing (k : BitVec 3) (target : Word) : State :=
  { State.reset with
    ns := .probing, nidx := k, target := target, edl := Config.identLen + 6, cs := .waitResp,
    pend := pendingOf .recv .bn 0x01 Config.openParam Config.identLen .baudAttempt, tmr := 5000, tmrEn := true,
    tp := { isOpen := true, baud := 9600, wait := .none } }

/-- The change-baud command waits for its Response. -/
def changing : State :=
  { probing 0 115200 with
    ns := .changing, lockBaud := 9600, pend := pendingOf .cmd .bn 0x04 115200 0 .command, tmr := 1000 }

/-- A negotiation is in state `n` at candidate `k` and waits for an answer of the transport. -/
def negotiating (n : Ns) (k : BitVec 3) (w : TpWait) : State :=
  { State.reset with ns := n, nidx := k, target := 115200, tp := { isOpen := false, baud := 9600, wait := w } }

/-- A negotiation has failed and the transport is closed. -/
def exhausted : State := { State.reset with ns := .exhausted, nidx := 5 }

theorem locked_free : LinkFree locked := ⟨rfl, rfl, rfl, rfl⟩
theorem locked_legal : Legal locked := ⟨by decide, by decide, rfl, by decide⟩
theorem reset_legal : Legal State.reset := ⟨by decide, by decide, rfl, by decide⟩
theorem waiting_legal : ∀ k : PendKind, k ≠ .reserved → Legal (waiting k) := by
  intro k hk
  cases k <;> first | exact absurd rfl hk | exact ⟨by decide, by decide, rfl, by decide⟩

theorem locked_consistent : Consistent locked where
  legal := locked_legal
  rbFits := Nat.zero_le _
  edlLegal := .inl rfl
  pbufForm := by decide
  pbufFits := by intro c hc; cases hc
  txqSmall := by decide
  txqOpening := by decide
  txqProbing := by decide
  timerLive := by decide
  timerOp := by decide
  timerUse := by decide
  timerSettle := by decide
  opHost := by decide
  opBn := by decide
  bnWaits := by decide
  dataPhase := by decide
  recvLen := fun h => absurd rfl h
  catHost := fun h => absurd rfl h
  catChange := by decide
  nidxAttempt := by decide
  tpOpening := by decide
  tpClosing := by decide
  tpUsed := by decide

theorem exhausted_consistent : Consistent exhausted where
  legal := ⟨by decide, by decide, rfl, by decide⟩
  rbFits := Nat.zero_le _
  edlLegal := .inl rfl
  pbufForm := by decide
  pbufFits := by intro c hc; cases hc
  txqSmall := by decide
  txqOpening := by decide
  txqProbing := by decide
  timerLive := by decide
  timerOp := by decide
  timerUse := by decide
  timerSettle := by decide
  opHost := by decide
  opBn := by decide
  bnWaits := by decide
  dataPhase := by decide
  recvLen := fun h => absurd rfl h
  catHost := fun h => absurd rfl h
  catChange := by decide
  nidxAttempt := by decide
  tpOpening := by decide
  tpClosing := by decide
  tpUsed := by decide

/-! ## Well-formedness refuses -/

/-- The third Response row excludes the marker of the first (30_encoding.md R88). -/
theorem test_wf_refuses_ack_marker : (Instr.responseOtherMarker 1 0 0x30 0).wf = false := by decide
/-- ... and of the second. -/
theorem test_wf_refuses_nack_marker : (Instr.responseOtherMarker 1 0 0x31 0).wf = false := by decide
theorem succ_not_le (n : Nat) : ¬ n + 1 ≤ n := by omega
/-- A payload that `PBUF` cannot hold (41_frame_codec.md R121). -/
theorem test_wf_refuses_long_payload : (Instr.dataOut (List.replicate (Config.pbufCap + 1) 0)).wf = false := by
  have h : ¬ Config.pbufCap + 1 ≤ Config.pbufCap := succ_not_le Config.pbufCap
  rw [← Config.fitsPbuf_iff] at h
  simpa [Instr.wf] using h

/-! ## Decoding: a word of every row, written out from the spec -/

/-- V21. -/
theorem test_decode_openCmd : decodeTableWord 96 0x55AA01000100000001000201 = some (.openCmd 1) := by decide
/-- V20. -/
theorem test_decode_closeCmd : decodeTableWord 96 0x55AA01000000000002000201 = some (.closeCmd 0) := by decide
/-- V20. -/
theorem test_decode_usbCheck : decodeTableWord 96 0x55AA01000000000003000301 = some (.usbCheck 0) := by decide
/-- V22. -/
theorem test_decode_changeBaudrate : decodeTableWord 96 0x55AA010000C201000400C701 = some (.changeBaudrate 115200) := by
  decide
/-- V27. -/
theorem test_decode_cmosLed : decodeTableWord 96 0x55AA01000100000012001301 = some (.cmosLed 1) := by decide
/-- V20. -/
theorem test_decode_getEnrollCount : decodeTableWord 96 0x55AA01000000000020002001 = some (.getEnrollCount 0) := by
  decide
/-- V103. -/
theorem test_decode_checkEnrolled : decodeTableWord 96 0x55AA01000700000021002801 = some (.checkEnrolled 7) := by
  decide
/-- V28. -/
theorem test_decode_enrollStart : decodeTableWord 96 0x55AA0100C70000002200E901 = some (.enrollStart 199) := by decide
/-- V20. -/
theorem test_decode_enroll1 : decodeTableWord 96 0x55AA01000000000023002301 = some (.enroll1 0) := by decide
/-- V20. -/
theorem test_decode_enroll2 : decodeTableWord 96 0x55AA01000000000024002401 = some (.enroll2 0) := by decide
/-- V20. -/
theorem test_decode_enroll3 : decodeTableWord 96 0x55AA01000000000025002501 = some (.enroll3 0) := by decide
/-- V29. -/
theorem test_decode_isPressFinger : decodeTableWord 96 0x55AA01007856341226003A02 = some (.isPressFinger 0x12345678) := by
  decide
/-- V100. -/
theorem test_decode_deleteId : decodeTableWord 96 0x55AA01000700000040004701 = some (.deleteId 7) := by decide
/-- V20. -/
theorem test_decode_deleteAll : decodeTableWord 96 0x55AA01000000000041004101 = some (.deleteAll 0) := by decide
/-- V20. -/
theorem test_decode_verify : decodeTableWord 96 0x55AA01000000000050005001 = some (.verify 0) := by decide
/-- V20. -/
theorem test_decode_identify : decodeTableWord 96 0x55AA01000000000051005101 = some (.identify 0) := by decide
/-- V99. -/
theorem test_decode_verifyTemplate : decodeTableWord 96 0x55AA01000700000052005901 = some (.verifyTemplate 7) := by
  decide
/-- V20. -/
theorem test_decode_identifyTemplate : decodeTableWord 96 0x55AA01000000000053005301 = some (.identifyTemplate 0) := by
  decide
/-- V102. -/
theorem test_decode_captureFinger : decodeTableWord 96 0x55AA01000100000060006101 = some (.captureFinger 1) := by
  decide
/-- V20. -/
theorem test_decode_makeTemplate : decodeTableWord 96 0x55AA01000000000061006101 = some (.makeTemplate 0) := by decide
/-- V20. -/
theorem test_decode_getImage : decodeTableWord 96 0x55AA01000000000062006201 = some (.getImage 0) := by decide
/-- V20. -/
theorem test_decode_getRawImage : decodeTableWord 96 0x55AA01000000000063006301 = some (.getRawImage 0) := by decide
/-- V29b. -/
theorem test_decode_getTemplate : decodeTableWord 96 0x55AA01000300000070007301 = some (.getTemplate 3) := by decide
/-- V29a. -/
theorem test_decode_setTemplate : decodeTableWord 96 0x55AA0100FFFFFFFF71006D05 = some (.setTemplate 0xffffffff) := by
  decide
/-- V37. -/
theorem test_decode_responseAck : decodeTableWord 96 0x55AA01000500000030003501 = some (.responseAck 1 5 0x0135) := by decide
/-- V70. -/
theorem test_decode_responseNack : decodeTableWord 96 0x55AA0100960000003100C701 = some (.responseNack 1 150 0x01C7) := by decide
/-- V39. -/
theorem test_decode_responseOtherMarker : decodeTableWord 96 0x55AA01000500000032003701 = some (.responseOtherMarker 1 5 0x32 0x0137) := by decide
/-- 30_encoding.md R83, R97. -/
theorem test_decode_dataOut : decodeTableWord 32 0x5AA50100 = some (.dataOut []) := by decide
/-- 30_encoding.md R83, R97. -/
theorem test_decode_dataIn : decodeTableWord 32 0x5AA50700 = some (.dataIn 7 [] 0) := by decide
/-- 30_encoding.md R93; fields 0 (log 3). -/
theorem test_decode_send : decodeTableWord 8 0x0 = some (.send 0 0 0) := by decide
/-- R93. -/
theorem test_decode_recv : decodeTableWord 8 0x1 = some (.recv 0 0 0 0) := by decide
/-- R93. -/
theorem test_decode_sendpay : decodeTableWord 8 0x2 = some (.sendpay 0 0) := by decide
/-- R93. -/
theorem test_decode_negotiate : decodeTableWord 8 0x3 = some (.negotiate 0) := by decide
/-- R93. -/
theorem test_decode_sessionReset : decodeTableWord 8 0x4 = some (.sessionReset) := by decide
/-- R93. -/
theorem test_decode_reservedReq5 : decodeTableWord 8 0x5 = some (.reservedReq5) := by decide
/-- R93. -/
theorem test_decode_reservedReq6 : decodeTableWord 8 0x6 = some (.reservedReq6) := by decide
/-- R93. -/
theorem test_decode_reservedReq7 : decodeTableWord 8 0x7 = some (.reservedReq7) := by decide

/-- A request record with every field of its own: op, param, len, tmo, target in this order (R93; log 3). -/
theorem test_decode_recv_record :
    decode .host [0x01, 0x70, 3, 0, 0, 0, 0xF2, 0x01, 0, 0, 0x88, 0x13, 0, 0, 0xFF, 0, 0, 0] =
      .ok (.recv 0x70 3 498 5000) := by decide
/-- The input events (30_encoding.md R94; log 3). -/
theorem test_decode_rxChunk : decode .link [0x00, 0x55, 0xAA] = .ok (.rxChunk [0x55, 0xAA]) := by decide
theorem test_decode_txDone : decode .link [0x01, 1, 12, 0, 0, 0] = .ok (.txDone true 12) := by decide
theorem test_decode_openDone : decode .link [0x02, 0] = .ok (.openDone false) := by decide
theorem test_decode_closeDone : decode .link [0x03, 1] = .ok (.closeDone true) := by decide
theorem test_decode_tpError : decode .link [0x04] = .ok .tpError := by decide
theorem test_decode_tick : decode .link [0x05] = .ok .tick := by decide
theorem test_decode_reservedEvt6 : decode .link [0x06] = .ok .reservedEvt6 := by decide
theorem test_decode_reservedEvt7 : decode .link [0x07] = .ok .reservedEvt7 := by decide
/-- V31: a Data frame with a payload, sent and received. -/
theorem test_decode_dataOut_payload :
    decode .host [0x5A, 0xA5, 0x01, 0x00, 1, 2, 3, 4, 0x0A, 0x01] = .ok (.dataOut [1, 2, 3, 4]) := by decide
theorem test_decode_dataIn_payload :
    decode .link [0x5A, 0xA5, 0x01, 0x00, 1, 2, 3, 4, 0x0A, 0x02] = .ok (.dataIn 1 [1, 2, 3, 4] 0x020A) := by decide
/-- An opcode that R89 does not list, and a reserved byte that is not 0, are refused by name. -/
theorem test_decode_refuses_opcode :
    decode .host [0x55, 0xAA, 1, 0, 0, 0, 0, 0, 0x05, 0, 0, 0] = .error .unlistedOpcode := by decide
theorem test_decode_refuses_reserved_byte :
    decode .host [0x55, 0xAA, 1, 0, 0, 0, 0, 0, 0x01, 1, 0, 0] = .error .frameHeader := by decide

/-! ## Encodings and checksums of the spec's vectors -/

/-- V29a. -/
theorem test_encode_largest_param :
    encodeCommand 0x71 0xFFFFFFFF = [0x55, 0xAA, 0x01, 0x00, 0xFF, 0xFF, 0xFF, 0xFF, 0x71, 0x00, 0x6D, 0x05] := by
  decide
/-- V31. -/
theorem test_encode_data :
    encodeData [1, 2, 3, 4] = [0x5A, 0xA5, 0x01, 0x00, 0x01, 0x02, 0x03, 0x04, 0x0A, 0x01] := by decide
/-- V5. -/
theorem test_checksum_largest :
    checksum [0x55, 0xAA, 0x01, 0x00, 0xFF, 0xFF, 0xFF, 0xFF, 0xFF, 0xFF] = 0x06FA := by decide
/-- V15: the trailer is little-endian. -/
theorem test_checksum_trailer_order :
    checksumValid [0x55, 0xAA, 1, 0, 5, 0, 0, 0, 0x30, 0, 0x01, 0x35] = false := by decide

/-! ## Single steps of the spec's vectors -/

/-- V62: NOT_READY after power-on. -/
theorem test_send_not_ready :
    (nextOf (exec (.send 0x01 0 0) State.reset)).map (fun t => (t.last.status, t.last.req, t.cs)) =
      some (.notReady, 0, .idle) := by decide
/-- V68. -/
theorem test_send_issues :
    (nextOf (exec (.send 0x20 0 0) locked)).map (fun t => (t.out, t.cs, t.tmr, t.txq)) =
      some ([.rxFlush, .txFrame [0x55, 0xAA, 1, 0, 0, 0, 0, 0, 0x20, 0, 0x20, 0x01]], .waitResp, 1000, 1) := by decide
/-- V63: a RECV with no timeout. -/
theorem test_recv_without_timeout :
    (nextOf (exec (.recv 0x63 0 0 0) locked)).map (fun t => (t.last.status, t.edl)) = some (.badRequest, 0) := by decide
/-- V97: GET_TEMPLATE sets `EDL` to 504. -/
theorem test_getTemplate_edl :
    (nextOf (exec (.getTemplate 3) locked)).map (fun t => (t.edl, t.tmr, t.pend.tcat)) = some (504, 5000, .bulk) := by
  decide
/-- V67: a SENDPAY of no bytes. -/
theorem test_sendpay_empty :
    (nextOf (exec (.sendpay 0 0) locked)).map (fun t => (t.out, t.tmr)) =
      some ([.rxFlush, .txFrame [0x5A, 0xA5, 1, 0, 0, 1]], 1000) := by decide
/-- V87, with the payload put in `PBUF` by DATA_OUT. -/
theorem test_dataOut_frame :
    (nextOf (exec (.dataOut [1, 2, 3, 4]) locked)).map (fun t => (t.out, pbufGet t.pbuf 3)) =
      some ([.rxFlush, .txFrame [0x5A, 0xA5, 1, 0, 1, 2, 3, 4, 0x0A, 0x01]], some 4) := by decide
/-- 70_reset_and_hazards.md R300: an unwritten byte. -/
theorem test_sendpay_unwritten : faultOf (exec (.sendpay 1 0) locked) = some (.pbufUnwritten 0) := by decide
/-- V69. -/
theorem test_response_ack :
    (nextOf (exec (.responseAck 1 5 0x0135) (waiting .cmd))).map
      (fun t => (t.last.status, t.last.value, t.last.rcsum, t.cs, t.tmrEn)) =
      some (.ok, 5, true, .idle, false) := by decide
/-- V73k: a wrong checksum is only reported. -/
theorem test_response_bad_checksum :
    (nextOf (exec (.responseAck 1 5 0x0235) (waiting .cmd))).map (fun t => (t.last.status, t.last.rcsum)) =
      some (.ok, false) := by decide
/-- V70. -/
theorem test_response_duplicate :
    (nextOf (exec (.responseNack 1 150 0x01C7) (waiting .cmd))).map (fun t => (t.last.status, t.last.value)) =
      some (.duplicateId, 150) := by decide
/-- V71. -/
theorem test_response_nack :
    (nextOf (exec (.responseNack 1 0x1009 0x014A) (waiting .cmd))).map (fun t => (t.last.status, t.last.nack)) =
      some (.deviceNack, .databaseFull) := by decide
/-- V73c: 200 is no duplicate ID. -/
theorem test_response_limit :
    (nextOf (exec (.responseNack 1 200 0x01F9) (waiting .cmd))).map (fun t => (t.last.status, t.last.nack)) =
      some (.deviceNack, .unknown) := by decide
/-- V73j: any other marker takes the NACK path. -/
theorem test_response_other_marker :
    (nextOf (exec (.responseOtherMarker 1 5 0x32 0x0137) (waiting .cmd))).map (fun t => (t.last.status, t.last.value)) =
      some (.duplicateId, 5) := by decide
/-- V42. -/
theorem test_rxChunk_partial :
    (nextOf (exec (.rxChunk [0x55, 0xAA, 0x01]) State.reset)).map (fun t => (t.rb, t.dropResp)) =
      some ([0x55, 0xAA, 0x01], 0) := by decide
/-- V40. -/
theorem test_rxChunk_stray :
    (nextOf (exec (.rxChunk [0x55, 0xAA, 1, 0, 5, 0, 0, 0, 0x30, 0, 0x35, 1]) State.reset)).map
      (fun t => (t.rb, t.dropResp)) = some ([], 1) := by decide
/-- V85: the Data frame of a receive. -/
theorem test_dataIn_completes :
    (nextOf (exec (.dataIn 1 [1, 2, 3, 4] 0x010A) { waitingData with edl := 10 })).map
      (fun t => (t.last.status, t.last.dcsum, pbufGet t.pbuf 0, pbufGet t.pbuf 3)) =
      some (.ok, true, some 1, some 4) := by decide
/-- V79: a short write. -/
theorem test_txDone_short :
    (nextOf (exec (.txDone true 5) { waiting .sendpay with txq := 1 })).map (fun t => (t.last.status, t.txq, t.cs)) =
      some (.transportError, 0, .idle) := by decide
/-- V75. -/
theorem test_tick_expires :
    (nextOf (exec .tick (waiting .cmd))).map (fun t => (t.last.status, t.last.tcat, t.tmr, t.tmrEn, t.cs)) =
      some (.timeout, .command, 0, false, .idle) := by decide
/-- V74: one tick before. -/
theorem test_tick_runs :
    (nextOf (exec .tick { waiting .cmd with tmr := 2 })).map (fun t => (t.tmr, t.tmrEn, t.cs, t.out)) =
      some (1, true, .waitResp, []) := by decide
/-- V110. -/
theorem test_negotiate_opens :
    (nextOf (exec (.negotiate 9600) State.reset)).map (fun t => (t.out, t.ns, t.tp, t.target)) =
      some ([.openTp 9600], .opening, { isOpen := false, baud := 9600, wait := .open_ }, 9600) := by decide
/-- V121: an open transport is closed first. -/
theorem test_negotiate_closes :
    (nextOf (exec (.negotiate 9600) locked)).map (fun t => (t.out, t.ns)) = some ([.closeTp], .preclose) := by decide
/-- V111, at the parameters' defaults (00_scope.md R10). -/
theorem test_openDone_probes (hp : Config.openParam = Config.openParamDefault)
    (hl : Config.identLen = Config.identLenDefault) :
    (nextOf (exec (.openDone true) (negotiating .opening 0 .open_))).map
      (fun t => (t.out, t.ns, t.edl, t.tmr, t.txq, t.tp.isOpen)) =
      some ([.rxFlush, .txFrame [0x55, 0xAA, 1, 0, 1, 0, 0, 0, 1, 0, 2, 1]], .probing, 30, 5000, 1, true) := by
  have h : (nextOf (exec (.openDone true) (negotiating .opening 0 .open_))).map
      (fun t => (t.out, t.ns, t.edl, t.tmr, t.txq, t.tp.isOpen)) =
      some ([.rxFlush, .txFrame (encodeCommand 0x01 Config.openParam)], .probing, edlOf Config.identLen, 5000, 1,
        true) := by rfl
  rw [h, hp, hl]
  decide
/-- V143: an open that no negotiation waits for. -/
theorem test_openDone_after_reset :
    (nextOf (exec (.openDone true) (negotiating .untried 0 .open_))).map (fun t => (t.out, t.ns, t.tp)) =
      some ([], .untried, { isOpen := true, baud := 9600, wait := .none }) := by decide
/-- V120: the change-baud command times out. -/
theorem test_tick_ends_change :
    (nextOf (exec .tick { changing with tmr := 1 })).map (fun t => (t.ns, t.cs, t.last.req, t.last.status, t.last.tcat)) =
      some (.failed, .idle, 3, .timeout, .command) := by decide
/-- V112: no CLOSE_TP for a failed open. -/
theorem test_openDone_fails :
    (nextOf (exec (.openDone false) (negotiating .opening 0 .open_))).map (fun t => (t.out, t.ns, t.nidx)) =
      some ([.openTp 115200], .opening, 1) := by decide
/-- 44_baud_negotiator.md R237: the last candidate. -/
theorem test_closeDone_exhausts :
    (nextOf (exec (.closeDone false) (negotiating .closingFail 4 .close))).map
      (fun t => (t.ns, t.nidx, t.last.status, t.last.req)) = some (.exhausted, 5, .baudExhausted, 3) := by decide
/-- V113: a transport error fails the probe silently. -/
theorem test_tpError_in_probe :
    (nextOf (exec .tpError (probing 0 9600))).map (fun t => (t.out, t.ns, t.terr)) =
      some ([.closeTp], .closingFail, false) := by decide
/-- V131. -/
theorem test_tpError_outside :
    (nextOf (exec .tpError locked)).map (fun t => (t.out, t.terr)) = some ([.terrNotify], true) := by decide
/-- V142. -/
theorem test_sessionReset_in_probe :
    (nextOf (exec .sessionReset (probing 0 9600))).map
      (fun t => (t.out[1]?, t.ns, t.cs, t.tp.wait)) =
      some (some .closeTp, .untried, .idle, .close) := by decide
/-- V135: a reserved kind is BAD_REQUEST before it is BUSY. -/
theorem test_reserved_request :
    (nextOf (exec .reservedReq6 (negotiating .opening 0 .open_))).map (fun t => (t.last.status, t.last.req)) =
      some (.badRequest, 6) := by decide
/-- V133: a chunk is taken before a tick of the same instant. -/
theorem test_chunk_before_tick :
    nextItem [[.link [0x05], .link [0x00, 0x55]], [.link [0x06]]] =
      some (.link [0x00, 0x55], [[.link [0x05]], [.link [0x06]]]) := by decide
/-- What cannot be a record is refused by name. -/
theorem test_step_refuses_malformed :
    (match step { State.reset with port := [[.link [0xFF]]] } with
      | .refused (.malformedRecord .unknownHeader) => true
      | _ => false) = true := by decide

/-! ## Witnesses: the hypotheses of each statement can be met -/

theorem witness_DecodeOfEncode :
    (Instr.responseOtherMarker 1 5 0x32 0x0137).wf = true ∧ (Instr.dataOut (List.replicate 52116 0)).wf = true := by
  constructor
  · decide
  · show Config.fitsPbuf (List.replicate 52116 (0 : Byte)).length = true
    rw [List.length_replicate]
    decide

theorem witness_DecodedIsWellFormed : decode .link [0x05] = .ok .tick := by decide

theorem witness_CommandFrameLayout :
    ∀ k, (fun k => BitVec.ofNat 8 ((5 : Word).toNat / 256 ^ k) : Nat → Byte) k =
      BitVec.ofNat 8 ((5 : Word).toNat / 256 ^ k) := fun _ => rfl

theorem witness_ChecksumIsByteSum : List.Perm [(1 : Byte), 2] [2, 1] := List.Perm.swap 2 1 []

theorem witness_BuiltFramesVerify : ([] : List Byte).length ≤ Config.pbufCap ∧
    (List.replicate Config.pbufCap (0xFF : Byte)).length ≤ Config.pbufCap := by simp

theorem witness_ExtractionSettles :
    ∃ t, exec (.rxChunk [0x55]) State.reset = .next t ∧ headMayStart t.edl t.rb = true :=
  ⟨{ State.reset with rb := [0x55] }, by rfl, by decide⟩

theorem witness_StreamConserved :
    ∃ t, exec (.rxChunk [0x55, 0xAA, 1]) State.reset = .next t ∧ t.rbOvf = false :=
  ⟨{ State.reset with rb := [0x55, 0xAA, 1] }, by rfl, rfl⟩

theorem witness_FullBufferLosesByte :
    ({ State.reset with rb := List.replicate Config.rbufCap 0 } : State).rb.length = Config.rbufCap := by simp

theorem witness_PartialResponseIsHeld :
    State.reset.rb = [] ∧ (List.replicate 9 (0 : Byte)).length < 10 ∧ ([] : List Byte).length < 10 ∧
    (waitingData.rb = [] ∧ waitingData.edl.toNat = ([] : List Byte).length + 6 ∧
      ([] : List Byte).length + 6 ≤ Config.rbufCap) :=
  ⟨by decide, by decide, by decide, rfl, by decide, le_trans (by decide) Config.rbufCap_bounds.1⟩

theorem witness_SendCommandsIssue (p : Word) : LinkFree locked ∧
    ((Instr.setTemplate p, (0x71 : Byte)) ∈ [(Instr.openCmd p, (0x01 : Byte)), (.closeCmd p, 0x02),
      (.usbCheck p, 0x03), (.changeBaudrate p, 0x04), (.cmosLed p, 0x12), (.getEnrollCount p, 0x20),
      (.checkEnrolled p, 0x21), (.enrollStart p, 0x22), (.enroll1 p, 0x23), (.enroll2 p, 0x24), (.enroll3 p, 0x25),
      (.isPressFinger p, 0x26), (.deleteId p, 0x40), (.deleteAll p, 0x41), (.verify p, 0x50), (.identify p, 0x51),
      (.verifyTemplate p, 0x52), (.identifyTemplate p, 0x53), (.captureFinger p, 0x60), (.setTemplate p, 0x71)]) :=
  ⟨locked_free, by simp⟩

theorem witness_ReceiveCommandsIssue (p : Word) : LinkFree locked ∧
    ((Instr.getImage p, (0x62 : Byte), (52116 : Word), (10000 : Word)) ∈
      [(Instr.makeTemplate p, (0x61 : Byte), (498 : Word), (5000 : Word)), (.getTemplate p, 0x70, 498, 5000),
       (.getImage p, 0x62, 52116, 10000), (.getRawImage p, 0x63, 19200, 10000)]) :=
  ⟨locked_free, by simp⟩

theorem witness_SendIssues : LinkFree locked := locked_free

theorem witness_RecvIssues : LinkFree locked ∧ (1 : Word) ≠ 0 ∧ (52116 : Word).toNat ≤ Config.pbufCap ∧
    (52116 : Word).toNat + 6 ≤ Config.rbufCap :=
  ⟨locked_free, by decide, Config.pbufCap_bounds.1, Config.rbufCap_bounds.1⟩

theorem witness_SendpayIssues : LinkFree { locked with pbuf := [(0, 0x41)] } ∧ (1 : Word).toNat ≤ Config.pbufCap ∧
    [(0x41 : Byte)].length = (1 : Word).toNat ∧
    (∀ k, k < (1 : Word).toNat → pbufGet [(0, 0x41)] k = [(0x41 : Byte)][k]?) :=
  ⟨⟨rfl, rfl, rfl, rfl⟩, le_trans (by decide) Config.pbufCap_bounds.1, rfl, by decide⟩

theorem witness_SendpayOfUnwrittenByteFaults : LinkFree locked ∧ (1 : Word).toNat ≤ Config.pbufCap ∧
    0 < (1 : Word).toNat ∧ pbufGet locked.pbuf 0 = none :=
  ⟨locked_free, le_trans (by decide) Config.pbufCap_bounds.1, by decide, rfl⟩

theorem witness_DataOutSends :
    Config.pbufCap < (List.replicate (Config.pbufCap + 1) (0 : Byte)).length ∧
    (List.replicate Config.pbufCap (0 : Byte)).length ≤ Config.pbufCap ∧ LinkFree locked := by
  refine ⟨?_, ?_, locked_free⟩
  · rw [List.length_replicate]; exact not_le.1 (succ_not_le Config.pbufCap)
  · rw [List.length_replicate]

/-- BUSY for an operation, an unanswered write and a negotiation; NOT_READY for no link and for a closed transport;
BAD_REQUEST for the largest length and for no timeout. -/
theorem witness_RefusalsInOrder :
    (Legal (waiting .cmd) ∧ (waiting .cmd).cs ≠ .idle) ∧
    (Legal { locked with txq := 1 } ∧ ({ locked with txq := 1 } : State).txq ≠ 0) ∧
    (Legal (negotiating .opening 0 .open_) ∧ nsInProgress (negotiating .opening 0 .open_).ns = true) ∧
    (Legal State.reset ∧ State.reset.cs = .idle ∧ State.reset.txq = 0 ∧ nsInProgress State.reset.ns = false ∧
      State.reset.ns ≠ .locked) ∧
    (Legal locked ∧ LinkFree locked ∧ Config.pbufCap < (0xFFFFFFFF : Word).toNat ∧
      decide ((0 : Word) = 0 ∨ Config.pbufCap < 0 ∨ Config.rbufCap < 0 + 6) = true) := by
  refine ⟨⟨waiting_legal .cmd (by decide), by decide⟩, ⟨⟨by decide, by decide, rfl, by decide⟩, by decide⟩,
    ⟨⟨by decide, by decide, rfl, by decide⟩, by decide⟩, ⟨reset_legal, rfl, rfl, rfl, by decide⟩,
    locked_legal, locked_free, ?_, by simp⟩
  exact lt_trans Config.pbufCap_bounds.2 (by decide)

theorem witness_SingleFlight :
    portOf (.send 0x21 1 0) = .host ∧ Instr.send 0x21 1 0 ≠ .sessionReset ∧ (waiting .cmd).cs ≠ .idle ∧
    (nextOf (exec (.send 0x21 1 0) (waiting .cmd))).isSome = true := by decide

theorem witness_ReservedRequestsRefused :
    (Instr.reservedReq7, (7 : BitVec 3)) ∈
      [(Instr.reservedReq5, (5 : BitVec 3)), (.reservedReq6, 6), (.reservedReq7, 7)] := by decide

/-- A SEND, a SENDPAY and the change-baud command. -/
theorem witness_AckCompletes : (waiting .sendpay).rb = [] ∧ (waiting .sendpay).cs = .waitResp ∧
    (waiting .sendpay).pend.owner = .host ∧ (waiting .sendpay).pend.kind = .sendpay ∧
    (waiting .cmd).pend.kind = .cmd ∧
    (changing.rb = [] ∧ changing.cs = .waitResp ∧ changing.pend.owner = .bn ∧ changing.pend.kind = .cmd ∧
      changing.ns = .changing) := by decide

theorem witness_AckOpensDataPhase : (waiting .recv).rb = [] ∧ (waiting .recv).cs = .waitResp ∧
    (waiting .recv).pend.kind = .recv := by decide

theorem probing_legal (k : BitVec 3) (target : Word) : Legal (probing k target) :=
  ⟨by simp [probing], by simp [probing, pendingOf], rfl, by simp [probing]⟩

/-- A host's receive, the probe and the change-baud command. -/
theorem witness_NackTranslation : (0x0031 : Half) ≠ 0x0030 ∧ (0x0000 : Half) ≠ 0x0030 ∧
    ((waiting .recv).rb = [] ∧ (waiting .recv).cs = .waitResp ∧ Legal (waiting .recv) ∧
      (waiting .recv).pend.owner = .host) ∧
    ((probing 0 9600).rb = [] ∧ (probing 0 9600).cs = .waitResp ∧ Legal (probing 0 9600) ∧
      (probing 0 9600).pend.owner = .bn ∧ (probing 0 9600).ns = .probing) ∧
    (changing.rb = [] ∧ changing.cs = .waitResp ∧ Legal changing ∧ changing.pend.owner = .bn ∧
      changing.ns = .changing) :=
  ⟨by decide, by decide, ⟨rfl, rfl, waiting_legal .recv (by decide), rfl⟩,
    ⟨rfl, rfl, probing_legal 0 9600, rfl, rfl⟩, rfl, rfl, ⟨by decide, by decide, rfl, by decide⟩, rfl, rfl⟩

theorem witness_UnboundResponseDropped : State.reset.cs = .idle ∧ waitingData.cs = .waitData ∧
    State.reset.rb = [] := by decide

theorem witness_DataCompletesReceive : waitingData.rb = [] ∧ waitingData.cs = .waitData ∧
    waitingData.pend.kind = .recv ∧ waitingData.pend.owner = .host ∧
    waitingData.edl.toNat = ([] : List Byte).length + 6 ∧ ([] : List Byte).length ≤ Config.pbufCap ∧
    ([] : List Byte).length + 6 ≤ Config.rbufCap :=
  ⟨rfl, rfl, rfl, rfl, rfl, Nat.zero_le _, le_trans (by decide) Config.rbufCap_bounds.1⟩

theorem witness_UnboundDataDropped : State.reset.cs = .idle ∧ (waiting .recv).cs = .waitResp ∧
    (waiting .recv).rb = [] ∧ (waiting .recv).edl.toNat = ([] : List Byte).length + 6 ∧
    ([] : List Byte).length + 6 ≤ Config.rbufCap :=
  ⟨rfl, rfl, rfl, rfl, le_trans (by decide) Config.rbufCap_bounds.1⟩

/-- No write unanswered, an older write, an ended operation, the exact length, a short write. -/
theorem witness_TxDoneAnswers :
    Legal locked ∧ locked.txq = 0 ∧ ({ waiting .cmd with txq := 2 } : State).txq ≠ 1 ∧
    Legal { locked with txq := 1 } ∧
    (Legal { waiting .sendpay with txq := 1 } ∧ (waiting .sendpay).pend.len.toNat + 6 = 6 ∧
      (6 : Word).toNat = 6 ∧ (5 : Word).toNat ≠ 6) :=
  ⟨locked_legal, rfl, by decide, ⟨by decide, by decide, rfl, by decide⟩, ⟨by decide, by decide, rfl, by decide⟩,
    by decide, by decide, by decide⟩

theorem witness_CompletionOutcomes :
    (Legal (waiting .cmd) ∧ (waiting .cmd).pend.owner = .host) ∧
    ((probing 0 9600).pend.owner = .bn ∧ (probing 0 9600).ns = .probing ∧ Status.timeout ≠ .ok) ∧
    (changing.pend.owner = .bn ∧ changing.ns = .changing) :=
  ⟨⟨waiting_legal .cmd (by decide), rfl⟩, by decide, by decide⟩

/-- The settle delay at its last tick. -/
def settling : State := { changing with ns := .settling, cs := .idle, tmr := 1 }

theorem witness_TickEffects :
    (Legal locked ∧ locked.tmrEn = false) ∧
    (Legal { waiting .cmd with tmr := 2 } ∧ ({ waiting .cmd with tmr := 2 } : State).tmr ≠ 0 ∧
      ({ waiting .cmd with tmr := 2 } : State).tmr ≠ 1) ∧
    (Legal (waiting .cmd) ∧ (waiting .cmd).tmrEn = true ∧ (waiting .cmd).tmr = 1 ∧ (waiting .cmd).cs ≠ .idle ∧
      (waiting .cmd).pend.owner = .host) ∧
    (Legal { probing 0 9600 with tmr := 1 } ∧ (probing 0 9600).tmrEn = true ∧ (probing 0 9600).cs ≠ .idle ∧
      (probing 0 9600).pend.owner = .bn ∧ (probing 0 9600).ns = .probing) ∧
    (Legal { changing with tmr := 1 } ∧ changing.tmrEn = true ∧ changing.cs ≠ .idle ∧ changing.pend.owner = .bn ∧
      changing.ns = .changing) ∧
    (Legal settling ∧ settling.tmrEn = true ∧ settling.tmr = 1 ∧ settling.cs = .idle ∧ settling.ns = .settling) :=
  ⟨⟨locked_legal, rfl⟩, ⟨⟨by decide, by decide, rfl, by decide⟩, by decide, by decide⟩,
    ⟨waiting_legal .cmd (by decide), rfl, rfl, by decide, rfl⟩,
    ⟨⟨by simp [probing], by simp [probing, pendingOf], rfl, by simp [probing]⟩, rfl, by simp [probing], rfl, rfl⟩,
    ⟨⟨by decide, by decide, rfl, by decide⟩, rfl, by decide, rfl, rfl⟩,
    ⟨by decide, by decide, rfl, by decide⟩, rfl, rfl, rfl, rfl⟩

theorem witness_TimerExpiresExactly : Legal (waiting .cmd) ∧ (waiting .cmd).tmrEn = true ∧
    (waiting .cmd).tmr.toNat = 0 + 1 ∧ (waiting .cmd).cs ≠ .idle ∧ (waiting .cmd).pend.owner = .host ∧
    ({ waiting .cmd with tmr := 0xFFFFFFFF } : State).tmr.toNat = 4294967294 + 1 :=
  ⟨waiting_legal .cmd (by decide), rfl, rfl, by decide, rfl, by decide⟩

/-- With an open and with a closed transport. -/
theorem witness_NegotiateStarts :
    (locked.cs = .idle ∧ locked.txq = 0 ∧ locked.tp.wait = .none ∧ locked.ns = .locked ∧ locked.tp.isOpen = true) ∧
    (State.reset.cs = .idle ∧ State.reset.txq = 0 ∧ State.reset.tp.wait = .none ∧ State.reset.ns = .untried ∧
      State.reset.tp.isOpen = false) := by decide

theorem witness_NegotiateBusy :
    (Legal (waiting .cmd) ∧ (waiting .cmd).cs ≠ .idle) ∧
    (Legal (negotiating .untried 0 .close) ∧ (negotiating .untried 0 .close).tp.wait ≠ .none) :=
  ⟨⟨waiting_legal .cmd (by decide), by decide⟩, ⟨by decide, by decide, rfl, by decide⟩, by decide⟩

theorem witness_OpenDoneSucceeds :
    ((negotiating .opening 0 .open_).tp.wait = .open_ ∧ (negotiating .opening 0 .open_).ns = .opening) ∧
    ((negotiating .reopening 0 .open_).tp.wait = .open_ ∧ (negotiating .reopening 0 .open_).ns = .reopening) ∧
    ((negotiating .untried 0 .open_).tp.wait = .open_ ∧ (negotiating .untried 0 .open_).ns ≠ .opening ∧
      (negotiating .untried 0 .open_).ns ≠ .reopening ∧ nsReserved (negotiating .untried 0 .open_).ns = false) := by
  decide

theorem witness_OpenDoneFails :
    ((negotiating .reopening 0 .open_).tp.wait = .open_ ∧ (negotiating .reopening 0 .open_).ns = .reopening) ∧
    ((negotiating .opening 0 .open_).nidx, (115200 : Word)) ∈
      [((0 : BitVec 3), (115200 : Word)), (1, 57600), (2, 38400), (3, 19200)] ∧
    ((negotiating .opening 3 .open_).nidx, (19200 : Word)) ∈
      [((0 : BitVec 3), (115200 : Word)), (1, 57600), (2, 38400), (3, 19200)] ∧
    (negotiating .opening 4 .open_).nidx = 4 ∧
    ((negotiating .untried 0 .open_).tp.wait = .open_ ∧ (negotiating .untried 0 .open_).ns ≠ .opening ∧
      (negotiating .untried 0 .open_).ns ≠ .reopening ∧ nsReserved (negotiating .untried 0 .open_).ns = false) := by
  decide

theorem witness_CloseDoneArcs :
    ((negotiating .preclose 0 .close).tp.wait = .close ∧ (negotiating .preclose 0 .close).ns = .preclose ∧
      ((negotiating .preclose 0 .close).nidx, (9600 : Word)) ∈
        [((0 : BitVec 3), (9600 : Word)), (1, 115200), (2, 57600), (3, 38400), (4, 19200)]) ∧
    ((negotiating .closingFail 3 .close).ns = .closingFail ∧
      ((negotiating .closingFail 3 .close).nidx, (19200 : Word)) ∈
        [((0 : BitVec 3), (115200 : Word)), (1, 57600), (2, 38400), (3, 19200)]) ∧
    (negotiating .closingFail 4 .close).nidx = 4 ∧ (negotiating .closingChg 0 .close).ns = .closingChg ∧
    ((negotiating .untried 0 .close).ns ≠ .preclose ∧ (negotiating .untried 0 .close).ns ≠ .closingFail ∧
      (negotiating .untried 0 .close).ns ≠ .closingChg ∧ nsReserved (negotiating .untried 0 .close).ns = false) := by
  decide

/-- The first candidate with the target rate, and the last with another target. -/
theorem witness_ProbeSucceeds :
    (∀ k target, ({ probing k target with cs := .waitData } : State).rb = [] ∧
      ({ probing k target with cs := .waitData } : State).pend.owner = .bn ∧
      ({ probing k target with cs := .waitData } : State).ns = .probing ∧
      ({ probing k target with cs := .waitData } : State).edl = Config.identLen + 6) ∧
    (List.replicate Config.identLen.toNat (0 : Byte)).length = Config.identLen.toNat ∧ (9600 : Word) = (probing 0 9600).target ∧
    (19200 : Word) ≠ (probing 4 9600).target ∧
    ((probing 4 9600).nidx, (19200 : Word)) ∈
      [((0 : BitVec 3), (9600 : Word)), (1, 115200), (2, 57600), (3, 38400), (4, 19200)] :=
  ⟨fun _ _ => ⟨rfl, rfl, rfl, rfl⟩, List.length_replicate, rfl, by simp [probing], by simp [probing]⟩

theorem witness_FiveFailedOpensExhaust : State.reset.cs = .idle ∧ State.reset.txq = 0 ∧
    State.reset.tp.wait = .none ∧ State.reset.tp.isOpen = false ∧ State.reset.ns = .untried := by decide

theorem witness_EndToEndNegotiation : Consistent exhausted ∧ exhausted.cs = .idle ∧ exhausted.txq = 0 ∧
    exhausted.tp.wait = .none ∧ exhausted.tp.isOpen = false ∧ exhausted.ns = .exhausted ∧ (115200 : Word) ≠ 9600 ∧
    (List.replicate Config.identLen.toNat (0 : Byte)).length = Config.identLen.toNat :=
  ⟨exhausted_consistent, rfl, rfl, rfl, rfl, rfl, by decide, List.length_replicate⟩

theorem witness_TransportErrorEvent :
    (locked.ns ≠ .probing ∧ nsReserved locked.ns = false) ∧
    ((probing 0 9600).ns = .probing ∧ (probing 0 9600).pend.owner = .bn) := by decide

theorem witness_EventsWithoutEffect : Legal locked ∧ locked.txq = 0 ∧ locked.tp.wait ≠ .open_ ∧
    locked.tp.wait ≠ .close ∧ locked.tmrEn = false := ⟨locked_legal, rfl, by decide, by decide, rfl⟩

theorem witness_FaultBitsSticky : ∃ t, exec .reservedReq5 { locked with rbOvf := true, stateBad := true } = .next t :=
  ⟨_, rfl⟩

theorem witness_ReservedEncodingSetsFaultBit :
    ({ locked with cs := .reserved } : State).cs = .reserved ∧ (negotiating (.reserved 3) 0 .none).ns = .reserved 3 ∧
    (negotiating .untried 0 .reserved).tp.wait = .reserved ∧
    ((waiting .reserved).pend.kind = .reserved ∧ (waiting .reserved).cs = .waitResp ∧
      (waiting .reserved).pend.owner = .host ∧ (waiting .reserved).tmrEn = true ∧ (waiting .reserved).tmr = 1) := by
  decide

theorem witness_FramesFollowFlush : (nextOf (exec (.send 0x20 0 0) locked)).isSome = true := by decide

theorem witness_OpenEmptiesBuffer :
    ∃ t, exec (.negotiate 9600) State.reset = .next t ∧ t.out = State.reset.out ++ [.openTp 9600] ∧
      OutEvent.openTp 9600 ∈ [OutEvent.openTp 9600] := ⟨_, rfl, rfl, by decide⟩

/-- By DATA_OUT, and by a Data frame that ends a host's receive of one byte. -/
theorem witness_PbufWrittenOnlyByBoundData :
    (nextOf (exec (.dataOut [7]) State.reset)).map (fun t => decide (t.pbuf ≠ State.reset.pbuf)) = some true ∧
    (nextOf (exec (.rxChunk [0x5A, 0xA5, 1, 0, 7, 7, 1]) { waitingData with edl := 7 })).map
      (fun t => decide (t.pbuf ≠ waitingData.pbuf)) = some true := by decide

theorem witness_ResultsFollowTable :
    Consistent { locked with port := [[.host [0x04, 0, 0, 0, 0, 0, 0, 0, 0, 0, 0, 0, 0, 0, 0, 0, 0, 0]]] } ∧
    (nextOf (step { locked with
      port := [[.host [0x04, 0, 0, 0, 0, 0, 0, 0, 0, 0, 0, 0, 0, 0, 0, 0, 0, 0]]] })).isSome = true :=
  ⟨{ locked_consistent with legal := ⟨by decide, by decide, rfl, by decide⟩ }, by decide⟩

theorem witness_SessionResetEffect : Legal (waiting .cmd) ∧ Legal (probing 0 9600) :=
  ⟨waiting_legal .cmd (by decide), probing_legal 0 9600⟩

theorem witness_StepRunsDecodedInstruction :
    nextItem [[itemOf .link [0x05]]] = some (itemOf .link [0x05], [[]]) ∧ decode .link [0x05] = .ok .tick ∧
    Instr.tick.wf = true ∧ decodeTableWord 8 0x4 = some .sessionReset ∧ nextItem State.reset.port = none ∧
    nextItem [[.powerOn]] = some (.powerOn, [[]]) ∧ nextItem [[.pbufWrite 5 [7]]] = some (.pbufWrite 5 [7], [[]]) ∧
    5 + [(7 : Byte)].length ≤ Config.pbufCap ∧
    takeFirst [.link [0x05], .link [0x04]] = some (.link [0x04], [.link [0x05]]) ∧ takeFirst [] = none :=
  ⟨by decide, by decide, by decide, by decide, by decide, by decide, by decide,
    le_trans (by decide) Config.pbufCap_bounds.1, by decide, rfl⟩

theorem witness_HighestPriorityFirst :
    takeFirst [.link [0x05], .link [0x04]] = some (.link [0x04], [.link [0x05]]) ∧ decode .link [0x05] = .ok .tick ∧
    (portOf (.negotiate 0) = .host ∧ Instr.negotiate 0 ≠ .sessionReset) ∧
    (portOf (.dataOut []) = .host ∧ Instr.dataOut [] ≠ .sessionReset) := by decide

theorem witness_InvariantKept : Consistent locked ∧ step locked = .next locked := ⟨locked_consistent, rfl⟩

theorem witness_InvariantStatesAreSafe :
    (Consistent locked ∧ (Instr.sendpay 1 0).wf = true ∧
      exec (.sendpay 1 0) locked = .fault (.pbufUnwritten 0)) ∧
    ∃ t, exec (.sendpay 0 0) locked = .next t :=
  ⟨⟨locked_consistent, rfl, by rfl⟩, _, rfl⟩

end Sys2Proof.Tests
end

section
/-! PROOFS. The wire image of a Command frame (30_encoding.md R81) and the opcode lookup (R89). -/

namespace Sys2Proof.Machine

/-! ## The Command frame -/

/-- The byte fields of a 16-bit value given as a number: `byteOf` sees it modulo 2^16, which neither byte notices. -/
theorem bytesLE16_ofNat (n : Nat) :
    bytesLE16 (BitVec.ofNat 16 n) = [BitVec.ofNat 8 n, BitVec.ofNat 8 (n / 256)] := by
  have low : byteOf (BitVec.ofNat 16 n).toNat 0 = BitVec.ofNat 8 n := by
    apply BitVec.eq_of_toNat_eq
    simp only [byteOf_toNat, BitVec.toNat_ofNat]
    omega
  have high : byteOf (BitVec.ofNat 16 n).toNat 1 = BitVec.ofNat 8 (n / 256) := by
    apply BitVec.eq_of_toNat_eq
    simp only [byteOf_toNat, BitVec.toNat_ofNat]
    omega
  rw [bytesLE16, low, high]

/-- The checksum field of a frame, in terms of the sum of the bytes before it (R110, R111). -/
theorem withChecksum_eq (f : List Byte) :
    withChecksum f = f ++ [BitVec.ofNat 8 (f.map BitVec.toNat).sum, BitVec.ofNat 8 ((f.map BitVec.toNat).sum / 256)] := by
  rw [withChecksum, checksum, bytesLE16_ofNat]

/-- A Command frame is its ten fixed-place bytes, then their checksum (R81, R120). -/
theorem encodeCommand_eq (op : Byte) (p : Word) :
    encodeCommand op p = withChecksum [0x55, 0xAA, 0x01, 0x00,
      byteOf p.toNat 0, byteOf p.toNat 1, byteOf p.toNat 2, byteOf p.toNat 3, op, 0x00] := rfl

/-- Settles O5: the ten bytes by `encodeCommand_eq`, the checksum field by `withChecksum_eq`. -/
theorem commandFrameLayout : Obligations.CommandFrameLayout := by
  intro op p b hb c hc
  have bytes (k : Nat) : byteOf p.toNat k = b k := (hb k).symm
  have sum : ([0x55, 0xAA, 0x01, 0x00, b 0, b 1, b 2, b 3, op, 0x00].map BitVec.toNat).sum = c := by
    simp [hc]
    omega
  rw [encodeCommand_eq, withChecksum_eq]
  simp only [bytes, sum, List.cons_append, List.nil_append]

/-! ## The opcode lookup -/

/-- Looking up a command's own opcode gives that command. -/
@[simp] theorem commandOf_opcodeOf (c : Command) : commandOf (opcodeOf c) = some c := by
  cases c <;> rfl

/-- The lookup is exact (R89). -/
theorem commandOf_eq_some_iff (op : Byte) (c : Command) : commandOf op = some c ↔ opcodeOf c = op := by
  constructor
  · intro found
    exact eq_of_beq (List.find?_some (p := fun d => opcodeOf d == op) found)
  · rintro rfl
    exact commandOf_opcodeOf c

/-- Settles O6: the table by evaluation, the lookup by `commandOf_eq_some_iff`. -/
theorem opcodeMap : Obligations.OpcodeMap :=
  ⟨rfl, commandOf_eq_some_iff⟩

end Sys2Proof.Machine
end

section
/-! PROOFS. The checksum as a byte sum (40_checksum.md R110), and that the frames the codec builds verify (R114). -/

namespace Sys2Proof.Machine

/-! ## The checksum as a byte sum -/

/-- The checksum, as a number, is the byte sum with the carries out of bit 15 discarded (R110). -/
theorem checksum_toNat (s : List Byte) : (checksum s).toNat = (s.map BitVec.toNat).sum % 65536 :=
  BitVec.toNat_ofNat _ 16

/-- A sum does not see the order of its summands, so neither does the checksum (R110). -/
theorem checksum_eq_of_perm {s t : List Byte} (perm : s.Perm t) : checksum s = checksum t :=
  congrArg (BitVec.ofNat 16) (perm.map BitVec.toNat).sum_eq

/-- The checksum before reduction adds over concatenation: a header and a payload are summed apart. -/
theorem checksum_append_toNat (s t : List Byte) :
    (checksum (s ++ t)).toNat = ((s.map BitVec.toNat).sum + (t.map BitVec.toNat).sum) % 65536 := by
  rw [checksum_toNat, List.map_append, List.sum_append]

/-- The byte sum of `n` equal bytes. -/
theorem byteSum_replicate (n : Nat) (b : Byte) : ((List.replicate n b).map BitVec.toNat).sum = n * b.toNat := by
  rw [List.map_replicate, List.sum_replicate, smul_eq_mul]

/-- The wrap family of R110: the Data header bytes sum to 0x0100, and each payload byte 0xFF adds 255. -/
theorem checksum_header_replicate_toNat (n : Nat) :
    (checksum ([0x5A, 0xA5, 0x01, 0x00] ++ List.replicate n 0xFF)).toNat = (0x0100 + 255 * n) % 65536 := by
  have header : (([0x5A, 0xA5, 0x01, 0x00] : List Byte).map BitVec.toNat).sum = 0x0100 := rfl
  have payload : ((List.replicate n (0xFF : Byte)).map BitVec.toNat).sum = 255 * n :=
    (byteSum_replicate n 0xFF).trans (Nat.mul_comm n 255)
  rw [checksum_append_toNat, header, payload]

/-- Settles O7: the sum by `checksum_toNat`, the order by `checksum_eq_of_perm`, the wrap family by
`checksum_header_replicate_toNat`, the two fixed sequences by evaluation. -/
theorem checksumIsByteSum : Obligations.ChecksumIsByteSum :=
  ⟨checksum_toNat, rfl, fun _ _ => checksum_eq_of_perm, checksum_header_replicate_toNat, rfl⟩

/-! ## Built frames verify -/

/-- Appending the checksum field makes any byte sequence verify: the field is the little-endian split of the checksum
that `checksumValid` computes again (R111, R112). -/
theorem checksumValid_withChecksum (f : List Byte) : checksumValid (withChecksum f) = true := by
  rw [withChecksum, checksumValid_of_parts, beq_self_eq_true]

/-- Settles O9: both encoders end in `withChecksum`, so the payload's bound is not needed. -/
theorem builtFramesVerify : Obligations.BuiltFramesVerify :=
  ⟨fun _ _ => checksumValid_withChecksum _, fun _ _ => checksumValid_withChecksum _⟩

end Sys2Proof.Machine
end

section
/-! PROOFS. The frame codec (41_frame_codec.md): a chunk is its parts one after the other (R133), and what decoding a
Response frame (R130) and a Data frame (R131) gives. -/

namespace Sys2Proof.Machine

/-! ## A chunk and its parts -/

/-- Feeding a concatenation feeds the first part, then the second unless the first stopped: `feed` keeps nothing
between two bytes but the state. -/
theorem feed_append (a b : List Byte) (s : State) : feed (a ++ b) s = andThen (feed a s) (feed b) := by
  induction a generalizing s with
  | nil => rfl
  | cons x a ih =>
    have rest : feed (a ++ b) = fun t => andThen (feed a t) (feed b) := funext ih
    rw [List.cons_append, feed, feed, andThen_assoc, rest]

theorem exec_rxChunk (bytes : List Byte) (s : State) : exec (.rxChunk bytes) s = outcomeOf (feed bytes s) := rfl

/-- Two instructions whose first answers `r`: the second runs from `r`'s state, or `r`'s fault is the outcome. -/
theorem execAll_pair {i j : Instr} {s : State} {r : Except Fault State} {f : State → Except Fault State}
    (first : exec i s = outcomeOf r) (second : ∀ t, exec j t = outcomeOf (f t)) :
    execAll [i, j] s = outcomeOf (andThen r f) := by
  cases r with
  | error e => simp only [execAll, first, outcomeOf, andThen_error_left]
  | ok t =>
    simp only [execAll, first, second, outcomeOf, andThen_ok_left]
    cases f t <;> rfl

/-- Settles O13: `feed_append` on the left, `execAll_pair` on the right. -/
theorem chunkInvariance : Obligations.ChunkInvariance := by
  intro a b s
  rw [exec_rxChunk, feed_append, execAll_pair (exec_rxChunk a s) (exec_rxChunk b)]

/-! ## Little-endian fields of arbitrary bytes -/

/-- Two bytes fit 16 bits, so nothing is lost in their assembly (R13). -/
theorem le16_toNat (a b : Byte) : (le16 a b).toNat = a.toNat + 256 * b.toNat := by
  rw [le16, BitVec.toNat_ofNat]
  omega

/-- Four bytes fit 32 bits (R13). -/
theorem le32_toNat (a b c d : Byte) :
    (le32 a b c d).toNat = a.toNat + 256 * b.toNat + 65536 * c.toNat + 16777216 * d.toNat := by
  rw [le32, BitVec.toNat_ofNat]
  omega

/-- Splitting after assembly: the converse of `le16_byteOf`. -/
theorem bytesLE16_le16 (a b : Byte) : bytesLE16 (le16 a b) = [a, b] := by
  have low : byteOf (le16 a b).toNat 0 = a := by
    apply BitVec.eq_of_toNat_eq
    rw [byteOf_toNat, le16_toNat]
    omega
  have high : byteOf (le16 a b).toNat 1 = b := by
    apply BitVec.eq_of_toNat_eq
    rw [byteOf_toNat, le16_toNat]
    omega
  rw [bytesLE16, low, high]

/-! ## The flags of a decoded frame -/

/-- The checksum flag compares the byte sum modulo 2^16 with the trailing field, whatever the bytes (R112). -/
theorem checksumValid_append_iff (f : List Byte) (c0 c1 : Byte) :
    checksumValid (f ++ [c0, c1]) = true ↔ (f.map BitVec.toNat).sum % 65536 = c0.toNat + 256 * c1.toNat := by
  rw [← bytesLE16_le16 c0 c1, checksumValid_of_parts, beq_iff_eq, ← BitVec.toNat_inj, checksum_toNat, le16_toNat]

/-- A marker read from two bytes is acknowledged for one pair of bytes only (R88). -/
theorem acknowledged_le16_iff (a0 a1 : Byte) : acknowledged (le16 a0 a1) = true ↔ a0 = 0x30 ∧ a1 = 0x00 := by
  have ackBytes : Config.ack = le16 0x30 0x00 := rfl
  rw [acknowledged, beq_iff_eq, ackBytes]
  constructor
  · intro same
    have bytes := congrArg bytesLE16 same
    rw [bytesLE16_le16, bytesLE16_le16] at bytes
    simpa using bytes
  · rintro ⟨rfl, rfl⟩
    rfl

/-! ## Decoding -/

/-- Settles O10: the fields are little-endian, and ten bytes sum to at most 2550, so the checksum never wraps here. -/
theorem responseDecoding : Obligations.ResponseDecoding := by
  intro m0 m1 d0 d1 p0 p1 p2 p3 a0 a1 c0 c1
  refine ⟨le16_toNat d0 d1, le32_toNat p0 p1 p2 p3, le16_toNat a0 a1, acknowledged_le16_iff a0 a1, ?_⟩
  refine (checksumValid_append_iff [m0, m1, d0, d1, p0, p1, p2, p3, a0, a1] c0 c1).trans ?_
  simp only [List.map_cons, List.map_nil, List.sum_cons, List.sum_nil]
  omega

/-- The payload of a Data frame is what lies between the 4 header bytes and the 2 checksum bytes (R131). -/
theorem decodeData_payload (m0 m1 d0 d1 c0 c1 : Byte) (payload : List Byte) :
    (decodeData ([m0, m1, d0, d1] ++ payload ++ [c0, c1])).payload = payload := by
  simp [decodeData]

/-- Settles O11: the payload by `decodeData_payload`, the flag by `checksumValid_append_iff`. -/
theorem dataDecoding : Obligations.DataDecoding := by
  intro m0 m1 d0 d1 c0 c1 payload
  refine ⟨le16_toNat d0 d1, decodeData_payload m0 m1 d0 d1 c0 c1 payload, ?_⟩
  refine (checksumValid_append_iff ([m0, m1, d0, d1] ++ payload) c0 c1).trans ?_
  simp only [List.cons_append, List.nil_append, List.map_cons, List.sum_cons, Nat.add_assoc]

end Sys2Proof.Machine
end

section
/-! PROOFS. The meaning of a NACK code (42_correlator.md R159): the rows of 30_encoding.md R91's table, and UNKNOWN for
every code that has no row. -/

namespace Sys2Proof.Machine

/-- R91's table: each NACK code with its `RES_NACK` value. -/
def nackRows : List (Nat × Nat) :=
  [(0x1003, 1), (0x1004, 2), (0x1005, 3), (0x1006, 4), (0x1007, 5), (0x1008, 6), (0x1009, 7), (0x100A, 8),
   (0x100C, 9), (0x100D, 10), (0x100E, 11), (0x100F, 12), (0x1011, 13), (0x1012, 14)]

/-- A code with a row has the meaning of that row. -/
theorem nackCode_nackMeaning_of_row : ∀ row ∈ nackRows,
    (nackCode (nackMeaning (BitVec.ofNat 32 row.1))).toNat = row.2 := by
  decide

/-- A code without a row is UNKNOWN: any other meaning comes from a branch whose code is in the table. -/
theorem nackMeaning_of_no_row {code : Word} (noRow : nackRows.lookup code.toNat = none) :
    nackMeaning code = .unknown := by
  unfold nackMeaning
  split
  case h_15 => rfl
  all_goals
    next listed =>
      rw [listed] at noRow
      contradiction

/-- Settles O12: by whether the table has a row for the code. -/
theorem nackMeaningTable : Obligations.NackMeaningTable := by
  intro code
  change _ = (nackRows.lookup code.toNat).getD 15
  cases found : nackRows.lookup code.toNat with
  | none =>
    rw [nackMeaning_of_no_row found]
    rfl
  | some value =>
    have row : (code.toNat, value) ∈ nackRows := by
      obtain ⟨before, after, parts, -⟩ := List.lookup_eq_some_iff.mp found
      simp [parts]
    simpa using nackCode_nackMeaning_of_row _ row

end Sys2Proof.Machine
end

section
/-! PROOFS. How a failed probe ends (44_baud_negotiator.md R236), and TP_ERROR (R246). -/

namespace Sys2Proof.Machine

/-! ## A failed probe -/

/-- A probe that ends with an error status closes the transport (R236). -/
theorem bnOpDone_of_probe_failed {r : OpResult} {s : State} (probing : s.ns = .probing) (failed : r.status ≠ .ok) :
    bnOpDone r s = .ok (closeTransport .closingFail s) := by
  rw [bnOpDone, probing]
  exact if_neg failed

/-- An operation of the negotiator ends by handing its result to the negotiator (42_correlator.md R164). -/
theorem complete_of_owner_bn {r : OpResult} {s : State} (owner : s.pend.owner = .bn) :
    complete r s = bnOpDone r (noteNs { s with cs := .idle, tmrEn := false }) := by
  rw [complete, owner]

/-- Completing the probe with an error status: the operation ends, no result is recorded, the transport closes. -/
theorem complete_of_probe_failed {r : OpResult} {s : State} (owner : s.pend.owner = .bn) (probing : s.ns = .probing)
    (failed : r.status ≠ .ok) :
    complete r s = .ok (closeTransport .closingFail { s with cs := .idle, tmrEn := false }) := by
  have named : nsReserved s.ns = false := by rw [probing]; rfl
  rw [complete_of_owner_bn owner, noteNs_legal (s := { s with cs := .idle, tmrEn := false }) named]
  exact bnOpDone_of_probe_failed probing failed

/-! ## TP_ERROR -/

theorem exec_tpError (s : State) : exec .tpError s = outcomeOf (onTpError s) := rfl

theorem onTpError_of_probing {s : State} (probing : s.ns = .probing) :
    onTpError s = complete { status := .transportError } s :=
  if_pos probing

/-- Outside the probe, in a named state, TP_ERROR is the side channel only (60_exceptions.md R273). -/
theorem onTpError_of_not_probing {s : State} (other : s.ns ≠ .probing) (named : nsReserved s.ns = false) :
    onTpError s = .ok (emit .terrNotify { s with terr := true }) := by
  rw [onTpError, if_neg other, noteNs_legal named]

/-- Settles O46: the side channel by `onTpError_of_not_probing`; during the probe the error completes the
negotiator's operation, which `complete_of_probe_failed` describes. -/
theorem transportErrorEvent : Obligations.TransportErrorEvent := by
  intro s
  constructor
  · intro other named
    rw [exec_tpError, onTpError_of_not_probing other named]
    rfl
  · intro probing owner
    have failed : Status.transportError ≠ Status.ok := by decide
    rw [exec_tpError, onTpError_of_probing probing, complete_of_probe_failed owner probing failed]
    rfl

end Sys2Proof.Machine
end

section
/-! PROOFS. Power-on reset (70_reset_and_hazards.md R290) and SESSION_RESET (R291): each part of the session reset as one
update of the state, and their composition. -/

namespace Sys2Proof.Machine

/-! ## Power-on reset -/

/-- Settles O54: the listed values are those `State.reset` writes, group by group in R290's order; with no byte of `PBUF`
listed, no address has a value. -/
theorem resetValues : Obligations.ResetValues := by
  refine ⟨rfl, rfl, rfl, rfl, rfl, rfl, rfl, rfl, ?negotiator⟩
  refine ⟨rfl, rfl, rfl, rfl, rfl, ?identity⟩
  refine ⟨rfl, rfl, rfl, rfl, rfl, ?transport_and_faults⟩
  refine ⟨rfl, rfl, rfl, rfl, ?counters⟩
  refine ⟨rfl, rfl, rfl, ?payload_buffer⟩
  exact fun _ => rfl

/-! ## The parts of SESSION_RESET -/

/-- The report of the operation a session reset ends: `LAST_RESULT` and one output event, under R291's first test. -/
theorem abortOperation_eq {s : State} (named : s.pend.kind ≠ .reserved) :
    abortOperation s = { s with
      last := if s.cs ≠ .idle ∧ s.pend.owner = .host then
        resultOf (kindCode s.pend.kind) { status := .aborted } else s.last
      out := s.out ++ if s.cs ≠ .idle ∧ s.pend.owner = .host then
        [.result (resultOf (kindCode s.pend.kind) { status := .aborted })] else [] } := by
  simp only [abortOperation, noteKind_legal named, Bool.and_eq_true, decide_eq_true_eq]
  split
  · rfl
  · rw [List.append_nil]

/-- The report of the negotiation a session reset ends. -/
theorem abortNegotiation_eq (s : State) :
    abortNegotiation s = { s with
      last := if nsInProgress s.ns = true then resultOf 3 { status := .aborted } else s.last
      out := s.out ++ if nsInProgress s.ns = true then [.result (resultOf 3 { status := .aborted })] else [] } := by
  rw [abortNegotiation, bnBusy]
  split
  · rfl
  · rw [List.append_nil]

/-- A session reset asks to close an open transport that owes no answer, and leaves any other transport alone. -/
theorem resetTransport_eq (s : State) :
    resetTransport s = { s with
      tp := if (s.tp.isOpen && decide (s.tp.wait = .none)) = true then { s.tp with wait := .close } else s.tp
      out := s.out ++ if (s.tp.isOpen && decide (s.tp.wait = .none)) = true then [.closeTp] else [] } := by
  rw [resetTransport]
  split
  · rfl
  · rw [List.append_nil]

/-- With no reserved encoding the notes of the registers read change nothing, so the reset is its four parts and its own
result (R272, R291). -/
theorem requestReset_legal {s : State} (legal : Legal s) :
    requestReset s =
      emitResult reqSessionReset { status := .ok } (assignReset (resetTransport (abortNegotiation (abortOperation s)))) := by
  rw [requestReset, noteCs_legal legal.cs, noteNs_legal legal.ns, noteTpWait_legal legal.wait]

/-! ## SESSION_RESET -/

/-- SESSION_RESET has the smallest place among the instructions (60_exceptions.md R265). -/
theorem instrPriority_sessionReset_lt {i : Instr} (other : i ≠ .sessionReset) :
    instrPriority .sessionReset < instrPriority i := by
  cases i with
  | sessionReset => exact absurd rfl other
  | _ => exact Nat.one_lt_succ_succ _

/-- Settles O55: the place by `instrPriority_sessionReset_lt`; the next state by composing the equations of the parts, of
which `assignReset` keeps the transport mirror and the output. -/
theorem sessionResetEffect : Obligations.SessionResetEffect := by
  refine ⟨fun _ => instrPriority_sessionReset_lt, fun s legal => ?_⟩
  have runs : exec .sessionReset s = .next (requestReset s) := rfl
  rw [runs, requestReset_legal legal, abortOperation_eq legal.kind, abortNegotiation_eq, resetTransport_eq]
  rfl

end Sys2Proof.Machine
end

section
/-! PROOFS. What the instructions ask of the block. The 45 rows of the opcode table call 14 operations (43_commands.md
R214; log 5, log 6, log 7): a statement about every instruction is proved by the cases of `Action`. -/

namespace Sys2Proof.Machine

/-- The operation an instruction stands for. -/
inductive Action where
  | send (op : Byte) (param tmo : Word)
  | recv (op : Byte) (param len tmo : Word)
  | sendpay (len tmo : Word)
  /-- The host's write of `PBUF` and the SENDPAY of its length (log 7). -/
  | dataOut (payload : List Byte)
  | negotiate (target : Word)
  | sessionReset
  /-- A reserved request kind: 5, 6 or 7. -/
  | refuse (k : Fin 3)
  /-- Bytes of the receive stream, also a received frame's (log 6). -/
  | chunk (bytes : List Byte)
  | txDone (ok : Bool) (count : Word)
  | openDone (ok : Bool)
  | closeDone
  | tpError
  | tick
  /-- A reserved event code. -/
  | nothing

/-- What an operation does. -/
def Action.run (a : Action) (s : State) : Except Fault State :=
  match a with
  | .send op param tmo => requestSend op param tmo s
  | .recv op param len tmo => requestRecv op param len tmo s
  | .sendpay len tmo => requestSendpay len tmo s
  | .dataOut payload => andThen (hostWrite 0 payload s) (requestSendpay (BitVec.ofNat 32 payload.length) 0)
  | .negotiate target => requestNegotiate target s
  | .sessionReset => .ok (requestReset s)
  | .refuse k => .ok (reject (BitVec.ofNat 3 (5 + k.val)) .badRequest s)
  | .chunk bytes => feed bytes s
  | .txDone ok count => onTxDone ok count s
  | .openDone ok => onOpenDone ok s
  | .closeDone => onCloseDone s
  | .tpError => onTpError s
  | .tick => onTick s
  | .nothing => .ok s

/-- A wire command is the first request of its host sequence (43_commands.md R214; log 5). -/
def commandAction (c : Command) (param : Word) : Action :=
  match profileOf c with
  | .sendCmd => .send (opcodeOf c) param 0
  | .recvData len tmo => .recv (opcodeOf c) param len tmo

/-- The operation of every row of the opcode table. -/
def actionOf : Instr → Action
  | .openCmd p => commandAction .openDev p
  | .closeCmd p => commandAction .closeDev p
  | .usbCheck p => commandAction .usbCheck p
  | .changeBaudrate p => commandAction .changeBaudrate p
  | .cmosLed p => commandAction .cmosLed p
  | .getEnrollCount p => commandAction .getEnrollCount p
  | .checkEnrolled p => commandAction .checkEnrolled p
  | .enrollStart p => commandAction .enrollStart p
  | .enroll1 p => commandAction .enroll1 p
  | .enroll2 p => commandAction .enroll2 p
  | .enroll3 p => commandAction .enroll3 p
  | .isPressFinger p => commandAction .isPressFinger p
  | .deleteId p => commandAction .deleteId p
  | .deleteAll p => commandAction .deleteAll p
  | .verify p => commandAction .verify p
  | .identify p => commandAction .identify p
  | .verifyTemplate p => commandAction .verifyTemplate p
  | .identifyTemplate p => commandAction .identifyTemplate p
  | .captureFinger p => commandAction .captureFinger p
  | .makeTemplate p => commandAction .makeTemplate p
  | .getImage p => commandAction .getImage p
  | .getRawImage p => commandAction .getRawImage p
  | .getTemplate p => commandAction .getTemplate p
  | .setTemplate p => commandAction .setTemplate p
  | .responseAck dev param csum => .chunk (responseFrame dev param Config.ack csum)
  | .responseNack dev param csum => .chunk (responseFrame dev param Config.nack csum)
  | .responseOtherMarker dev param marker csum => .chunk (responseFrame dev param marker csum)
  | .dataOut payload => .dataOut payload
  | .dataIn dev payload csum => .chunk (dataFrame dev payload csum)
  | .send op param tmo => .send op param tmo
  | .recv op param len tmo => .recv op param len tmo
  | .sendpay len tmo => .sendpay len tmo
  | .negotiate target => .negotiate target
  | .sessionReset => .sessionReset
  | .reservedReq5 => .refuse 0
  | .reservedReq6 => .refuse 1
  | .reservedReq7 => .refuse 2
  | .rxChunk bytes => .chunk bytes
  | .txDone ok count => .txDone ok count
  | .openDone ok => .openDone ok
  | .closeDone _ => .closeDone
  | .tpError => .tpError
  | .tick => .tick
  | .reservedEvt6 => .nothing
  | .reservedEvt7 => .nothing

/-- An instruction's meaning is its operation: the model's arms, all 45 of them. -/
theorem exec_eq_run (i : Instr) (s : State) : exec i s = outcomeOf ((actionOf i).run s) := by
  cases i <;> rfl

theorem exec_next_iff {i : Instr} {s t : State} : exec i s = .next t ↔ (actionOf i).run s = .ok t := by
  rw [exec_eq_run, outcomeOf_next]

theorem exec_fault_iff {i : Instr} {s : State} {e : Fault} : exec i s = .fault e ↔ (actionOf i).run s = .error e := by
  rw [exec_eq_run, outcomeOf_fault]

theorem actionOf_commandInstr (c : Command) (p : Word) : actionOf (commandInstr c p) = commandAction c p := by
  cases c <;> rfl

end Sys2Proof.Machine
end

section
/-! PROOFS. The records of the input ports (30_encoding.md sections 1, 2 and 5): decoding undoes encoding, what is
decoded
is well formed, and the fixed bytes of a Command frame. -/

namespace Sys2Proof

open Sys2Proof.Machine

/-! ## Start markers -/

theorem decodeHost_crMark (rest : List Byte) : decodeHost (0x55 :: rest) = decodeCommandFrame (0x55 :: rest) := rfl
theorem decodeHost_dMark (rest : List Byte) : decodeHost (0x5A :: rest) = decodeDataOut (0x5A :: rest) := rfl
theorem decodeLink_crMark (rest : List Byte) : decodeLink (0x55 :: rest) = decodeResponseFrame (0x55 :: rest) := rfl
theorem decodeLink_dMark (rest : List Byte) : decodeLink (0x5A :: rest) = decodeDataIn (0x5A :: rest) := rfl

/-! ## Command frames -/

@[simp] theorem encode_commandInstr (c : Command) (p : Word) :
    encode (commandInstr c p) = encodeCommand (opcodeOf c) p := by
  cases c <;> rfl

@[simp] theorem portOf_commandInstr (c : Command) (p : Word) : portOf (commandInstr c p) = .host := by
  cases c <;> rfl

@[simp] theorem wf_commandInstr (c : Command) (p : Word) : (commandInstr c p).wf = true := by
  cases c <;> rfl

/-- The row of a command tells the command and its parameter: both can be read from the frame it is encoded to. -/
theorem commandInstr_inj {c d : Command} {p q : Word} (same : commandInstr c p = commandInstr d q) : c = d ∧ p = q := by
  have frames : encodeCommand (opcodeOf c) p = encodeCommand (opcodeOf d) q := by
    rw [← encode_commandInstr, same, encode_commandInstr]
  simp only [encodeCommand_eq, withChecksum_eq, List.cons_append, List.nil_append, List.cons.injEq] at frames
  obtain ⟨-, -, -, -, b0, b1, b2, b3, opcode, -⟩ := frames
  refine ⟨?_, ?_⟩
  · simpa using congrArg commandOf opcode
  · rw [← le32_byteOf p, b0, b1, b2, b3, le32_byteOf]

/-- The 12 bytes of R81 with any checksum field are the row of their command (R97; log 8). -/
theorem decodeHost_commandFrame (c : Command) (p0 p1 p2 p3 c0 c1 : Byte) :
    decodeHost [0x55, 0xAA, 0x01, 0x00, p0, p1, p2, p3, opcodeOf c, 0x00, c0, c1] =
      .ok (commandInstr c (le32 p0 p1 p2 p3)) := by
  have header : (0xAA : Byte) = Config.crMark1 ∧ le16 0x01 0x00 = Config.deviceId ∧ (0x00 : Byte) = 0 := ⟨rfl, rfl, rfl⟩
  rw [decodeHost_crMark, decodeCommandFrame, if_pos header, commandOf_opcodeOf]

/-- The device-id field of a frame holds `P_DEVICE_ID` for one pair of bytes only. -/
theorem le16_eq_deviceId {d0 d1 : Byte} (h : le16 d0 d1 = Config.deviceId) : d0 = 0x01 ∧ d1 = 0x00 := by
  have bytes : bytesLE16 (le16 d0 d1) = [0x01, 0x00] := by rw [h]; rfl
  simpa [bytesLE16_le16] using bytes

/-- Only frames of R81's shape are Command frames. -/
theorem decodeCommandFrame_ok {f : List Byte} {i : Instr} (h : decodeCommandFrame f = .ok i) :
    ∃ (m0 p0 p1 p2 p3 c0 c1 : Byte) (c : Command),
      f = [m0, 0xAA, 0x01, 0x00, p0, p1, p2, p3, opcodeOf c, 0x00, c0, c1] ∧ i = commandInstr c (le32 p0 p1 p2 p3) := by
  unfold decodeCommandFrame at h
  split at h
  · next m0 m1 d0 d1 p0 p1 p2 p3 op rsv c0 c1 =>
    split at h
    · next header =>
      obtain ⟨rfl, device, rfl⟩ := header
      obtain ⟨rfl, rfl⟩ := le16_eq_deviceId device
      split at h
      · next c found =>
        obtain rfl := (commandOf_eq_some_iff op c).1 found
        cases h
        exact ⟨m0, p0, p1, p2, p3, c0, c1, c, rfl, rfl⟩
      · cases h
    · cases h
  · cases h

/-! ## Data frames -/

/-- A Data frame the block sends decodes to its payload. -/
theorem decodeHost_encodeData {payload : List Byte} (fits : Config.fitsPbuf payload.length = true) :
    decodeHost (encodeData payload) = .ok (.dataOut payload) := by
  have frame : encodeData payload = 0x5A :: 0xA5 :: 0x01 :: 0x00 ::
      (payload ++ bytesLE16 (checksum ([Config.dMark0, Config.dMark1] ++ bytesLE16 Config.deviceId ++ payload))) := rfl
  have header : (0xA5 : Byte) = Config.dMark1 ∧ le16 0x01 0x00 = Config.deviceId := ⟨rfl, rfl⟩
  rw [frame, decodeHost_dMark, decodeDataOut, if_pos header]
  simp [fits]

theorem decodeDataOut_ok {f : List Byte} {i : Instr} (h : decodeDataOut f = .ok i) :
    ∃ payload, i = .dataOut payload ∧ Config.fitsPbuf payload.length = true := by
  unfold decodeDataOut at h
  split at h
  · next rest =>
    split at h
    · split at h
      · cases h
      · split at h
        · next fits =>
          cases h
          exact ⟨_, rfl, by simpa using fits⟩
        · cases h
    · cases h
  · cases h

/-- A received Data frame decodes to its fields. -/
theorem decodeLink_dataFrame (dev : Half) (payload : List Byte) (csum : Half) :
    decodeLink (dataFrame dev payload csum) = .ok (.dataIn dev payload csum) := by
  have frame : dataFrame dev payload csum = 0x5A :: 0xA5 :: byteOf dev.toNat 0 :: byteOf dev.toNat 1 ::
      (payload ++ [byteOf csum.toNat 0, byteOf csum.toNat 1]) := rfl
  have header : (0xA5 : Byte) = Config.dMark1 := rfl
  rw [frame, decodeLink_dMark, decodeDataIn, if_pos header]
  simp [frameByte]

theorem decodeDataIn_ok {f : List Byte} {i : Instr} (h : decodeDataIn f = .ok i) :
    ∃ dev payload csum, i = .dataIn dev payload csum := by
  unfold decodeDataIn at h
  split at h
  · split at h
    · split at h
      · cases h
      · cases h
        exact ⟨_, _, _, rfl⟩
    · cases h
  · cases h

/-! ## Response frames -/

/-- The row of a Response frame with this marker (R82, R88). -/
def responseInstr (dev : Half) (param : Word) (marker csum : Half) : Instr :=
  if marker = Config.ack then .responseAck dev param csum
  else if marker = Config.nack then .responseNack dev param csum
  else .responseOtherMarker dev param marker csum

theorem decodeLink_responseFrame (dev : Half) (param : Word) (marker csum : Half) :
    decodeLink (responseFrame dev param marker csum) = .ok (responseInstr dev param marker csum) := by
  have frame : responseFrame dev param marker csum = [0x55, 0xAA, byteOf dev.toNat 0, byteOf dev.toNat 1,
      byteOf param.toNat 0, byteOf param.toNat 1, byteOf param.toNat 2, byteOf param.toNat 3,
      byteOf marker.toNat 0, byteOf marker.toNat 1, byteOf csum.toNat 0, byteOf csum.toNat 1] := rfl
  have header : (0xAA : Byte) = Config.crMark1 := rfl
  rw [frame, decodeLink_crMark, decodeResponseFrame, if_pos header]
  simp only [le16_byteOf, le32_byteOf, responseInstr]
  split
  · rfl
  · split <;> rfl

theorem decodeResponseFrame_ok {f : List Byte} {i : Instr} (h : decodeResponseFrame f = .ok i) :
    ∃ dev param marker csum, i = responseInstr dev param marker csum := by
  unfold decodeResponseFrame at h
  split at h
  · next _ _ d0 d1 p0 p1 p2 p3 a0 a1 c0 c1 =>
    split at h
    · refine ⟨le16 d0 d1, le32 p0 p1 p2 p3, le16 a0 a1, le16 c0 c1, Except.ok.inj (h.symm.trans ?_)⟩
      unfold responseInstr
      split
      · rfl
      · split <;> rfl
    · cases h
  · cases h

theorem wf_responseInstr (dev : Half) (param : Word) (marker csum : Half) :
    (responseInstr dev param marker csum).wf = true ∧ portOf (responseInstr dev param marker csum) = .link := by
  unfold responseInstr
  split
  · exact ⟨rfl, rfl⟩
  · split
    · exact ⟨rfl, rfl⟩
    · next notAck notNack => exact ⟨by simp [Instr.wf, notAck, notNack], rfl⟩

/-! ## Requests and events -/

/-- A record of a code below 8 is read as a request (R93). -/
theorem decodeHost_encodeRequest {k : Byte} (small : k.toNat < 8) (op : Byte) (param len tmo target : Word) :
    decodeHost (encodeRequest k op param len tmo target) =
      decodeRequest k (op :: (bytesLE32 param ++ bytesLE32 len ++ bytesLE32 tmo ++ bytesLE32 target)) := by
  have notFrame : k ≠ Config.crMark0 ∧ k ≠ Config.dMark0 := by
    constructor <;> rintro rfl <;> exact absurd small (by decide)
  have fields : encodeRequest k op param len tmo target =
      k :: op :: (bytesLE32 param ++ bytesLE32 len ++ bytesLE32 tmo ++ bytesLE32 target) := rfl
  rw [fields, decodeHost, if_neg notFrame.1, if_neg notFrame.2, if_pos small]

/-- A request's first byte is its code, also in the record of what it decodes to. -/
theorem decodeRequest_ok {k : Byte} {fields : List Byte} {i : Instr} (h : decodeRequest k fields = .ok i) :
    i.wf = true ∧ portOf i = .host ∧ (encode i).head? = some k := by
  unfold decodeRequest at h
  split at h
  · split at h
    case h_9 => cases h
    all_goals
      next code =>
        cases h
        exact ⟨rfl, rfl, congrArg some (BitVec.eq_of_toNat_eq code.symm)⟩
  · cases h

theorem decodeBit_encodeBit (b : Bool) : decodeBit (encodeBit b) = .ok b := by
  cases b <;> rfl

/-- A value read through a 1-bit field comes from the constructor applied to a bit. -/
theorem map_decodeBit_ok {bit : Byte} {f : Bool → Instr} {i : Instr} (h : (decodeBit bit).map f = .ok i) :
    ∃ v, i = f v := by
  cases read : decodeBit bit with
  | error e => rw [read] at h; cases h
  | ok v => rw [read] at h; cases h; exact ⟨v, rfl⟩

theorem eventCode_cases {k : Byte} (small : k.toNat < 8) :
    k = 0 ∨ k = 1 ∨ k = 2 ∨ k = 3 ∨ k = 4 ∨ k = 5 ∨ k = 6 ∨ k = 7 := by
  revert k; decide

theorem decodeEvent_ok {k : Byte} {fields : List Byte} {i : Instr} (small : k.toNat < 8)
    (h : decodeEvent k fields = .ok i) : i.wf = true ∧ portOf i = .link := by
  rcases eventCode_cases small with rfl | rfl | rfl | rfl | rfl | rfl | rfl | rfl
  case inl =>
    cases h
    exact ⟨rfl, rfl⟩
  case inr.inl =>
    match fields, h with
    | [_, _, _, _, _], h =>
      obtain ⟨v, rfl⟩ := map_decodeBit_ok h
      exact ⟨rfl, rfl⟩
    | [], h | [_], h | [_, _], h | [_, _, _], h | [_, _, _, _], h | _ :: _ :: _ :: _ :: _ :: _ :: _, h => cases h
  case inr.inr.inl | inr.inr.inr.inl =>
    match fields, h with
    | [_], h =>
      obtain ⟨v, rfl⟩ := map_decodeBit_ok h
      exact ⟨rfl, rfl⟩
    | [], h | _ :: _ :: _, h => cases h
  all_goals
    match fields, h with
    | [], h =>
      cases h
      exact ⟨rfl, rfl⟩
    | _ :: _, h => cases h
/-! ## The obligations -/

/-- Settles O1: the frames by the lemmas above, the request records by `decodeHost_encodeRequest`; the records of the
events are read field by field. -/
theorem decodeOfEncode : Obligations.DecodeOfEncode := by
  intro i wf
  have command (c : Command) (p : Word) : decodeHost (encodeCommand (opcodeOf c) p) = .ok (commandInstr c p) := by
    rw [encodeCommand_eq, withChecksum_eq, List.cons_append]
    simp only [List.cons_append, List.nil_append, decodeHost_commandFrame, le32_byteOf]
  have response := decodeLink_responseFrame
  cases i with
  | responseAck dev param csum => exact response dev param Config.ack csum
  | responseNack dev param csum => exact response dev param Config.nack csum
  | responseOtherMarker dev param marker csum =>
    simp only [Instr.wf, Bool.and_eq_true, bne_iff_ne] at wf
    exact (response dev param marker csum).trans (by rw [responseInstr, if_neg wf.1, if_neg wf.2])
  | dataOut payload => exact decodeHost_encodeData wf
  | dataIn dev payload csum => exact decodeLink_dataFrame dev payload csum
  | send op param tmo =>
    refine (decodeHost_encodeRequest (k := 0) (by decide) op param 0 tmo 0).trans ?_
    simp [decodeRequest, bytesLE32]
  | recv op param len tmo =>
    refine (decodeHost_encodeRequest (k := 1) (by decide) op param len tmo 0).trans ?_
    simp [decodeRequest, bytesLE32]
  | sendpay len tmo =>
    refine (decodeHost_encodeRequest (k := 2) (by decide) 0 0 len tmo 0).trans ?_
    simp [decodeRequest, bytesLE32]
  | negotiate target =>
    refine (decodeHost_encodeRequest (k := 3) (by decide) 0 0 0 0 target).trans ?_
    simp [decodeRequest, bytesLE32]
  | sessionReset => rfl
  | reservedReq5 => rfl
  | reservedReq6 => rfl
  | reservedReq7 => rfl
  | rxChunk bytes => rfl
  | txDone ok count =>
    have fields : decodeEvent 1 (encodeBit ok :: bytesLE32 count) = .ok (.txDone ok count) := by
      have read : decodeEvent 1 (encodeBit ok :: bytesLE32 count) = (decodeBit (encodeBit ok)).map (fun v =>
          .txDone v (le32 (byteOf count.toNat 0) (byteOf count.toNat 1)
            (byteOf count.toNat 2) (byteOf count.toNat 3))) :=
        rfl
      rw [read, decodeBit_encodeBit, le32_byteOf]
      rfl
    exact fields
  | openDone ok => cases ok <;> rfl
  | closeDone ok => cases ok <;> rfl
  | tpError => rfl
  | tick => rfl
  | reservedEvt6 => rfl
  | reservedEvt7 => rfl
  | openCmd p => exact command .openDev p
  | closeCmd p => exact command .closeDev p
  | usbCheck p => exact command .usbCheck p
  | changeBaudrate p => exact command .changeBaudrate p
  | cmosLed p => exact command .cmosLed p
  | getEnrollCount p => exact command .getEnrollCount p
  | checkEnrolled p => exact command .checkEnrolled p
  | enrollStart p => exact command .enrollStart p
  | enroll1 p => exact command .enroll1 p
  | enroll2 p => exact command .enroll2 p
  | enroll3 p => exact command .enroll3 p
  | isPressFinger p => exact command .isPressFinger p
  | deleteId p => exact command .deleteId p
  | deleteAll p => exact command .deleteAll p
  | verify p => exact command .verify p
  | identify p => exact command .identify p
  | verifyTemplate p => exact command .verifyTemplate p
  | identifyTemplate p => exact command .identifyTemplate p
  | captureFinger p => exact command .captureFinger p
  | makeTemplate p => exact command .makeTemplate p
  | getImage p => exact command .getImage p
  | getRawImage p => exact command .getRawImage p
  | getTemplate p => exact command .getTemplate p
  | setTemplate p => exact command .setTemplate p

/-- What a record of the host port decodes to is well formed, of the host port, and its own record starts with the same
byte. -/
theorem decodeHost_ok {b : Byte} {rest : List Byte} {i : Instr} (h : decodeHost (b :: rest) = .ok i) :
    i.wf = true ∧ portOf i = .host ∧ (encode i).head? = some b := by
  simp only [decodeHost] at h
  split at h
  · next start =>
    obtain ⟨_, _, _, _, _, _, _, c, -, rfl⟩ := decodeCommandFrame_ok h
    refine ⟨wf_commandInstr _ _, portOf_commandInstr _ _, ?_⟩
    rw [encode_commandInstr, start]
    rfl
  · split at h
    · next start =>
      obtain ⟨payload, rfl, fits⟩ := decodeDataOut_ok h
      exact ⟨fits, rfl, congrArg some start.symm⟩
    · split at h
      · exact decodeRequest_ok h
      · cases h

theorem decodeLink_ok {bytes : List Byte} {i : Instr} (h : decodeLink bytes = .ok i) :
    i.wf = true ∧ portOf i = .link := by
  unfold decodeLink at h
  split at h
  · cases h
  · split at h
    · obtain ⟨_, _, _, _, rfl⟩ := decodeResponseFrame_ok h
      exact wf_responseInstr _ _ _ _
    · split at h
      · obtain ⟨_, _, _, rfl⟩ := decodeDataIn_ok h
        exact ⟨rfl, rfl⟩
      · split at h
        · next small => exact decodeEvent_ok small h
        · cases h

/-- Settles O2: `decodeHost_ok` and `decodeLink_ok`; no bytes are no record. -/
theorem decodedIsWellFormed : Obligations.DecodedIsWellFormed := by
  intro p bytes i h
  cases p with
  | link => exact decodeLink_ok h
  | host =>
    cases bytes with
    | nil => cases h
    | cons b rest =>
      obtain ⟨wf, port, -⟩ := decodeHost_ok h
      exact ⟨wf, port⟩

/-- Settles O3: a record that decodes to a command starts with the Command marker (`decodeHost_ok`), so it is a Command
frame, whose shape `decodeCommandFrame_ok` gives; `decodeHost_commandFrame` is the converse. -/
theorem commandRowMatchesFixedBytes : Obligations.CommandRowMatchesFixedBytes := by
  intro c p f
  constructor
  · intro h
    cases f with
    | nil => cases h
    | cons b rest =>
      obtain ⟨-, -, start⟩ := decodeHost_ok h
      have mark : b = Config.crMark0 := by
        rw [encode_commandInstr] at start
        exact (Option.some.inj start).symm
      have frame : decodeCommandFrame (b :: rest) = .ok (commandInstr c p) := by
        rw [← h, decode, decodeHost, if_pos mark]
      obtain ⟨m0, p0, p1, p2, p3, c0, c1, d, shape, row⟩ := decodeCommandFrame_ok frame
      obtain ⟨rfl, rfl⟩ := commandInstr_inj row
      obtain ⟨rfl, -⟩ := List.cons.inj shape
      refine ⟨p0, p1, p2, p3, c0, c1, ?_, le32_toNat p0 p1 p2 p3⟩
      rw [shape, mark]
      rfl
  · rintro ⟨p0, p1, p2, p3, c0, c1, rfl, value⟩
    have param : le32 p0 p1 p2 p3 = p := BitVec.eq_of_toNat_eq ((le32_toNat p0 p1 p2 p3).trans value.symm)
    exact (decodeHost_commandFrame c p0 p1 p2 p3 c0 c1).trans (by rw [param])

/-- Settles O4: each word is a closed record, decoded by evaluation. -/
theorem sampleWordsDecode : Obligations.SampleWordsDecode :=
  ⟨by decide, by decide, by decide, by decide, by decide, by decide, by decide⟩

/-! ## The accumulator -/

/-- Stepping the accumulator over the bytes adds their sum to it modulo 2^16 (40_checksum.md R113). -/
theorem foldl_accStep_toNat (s : List Byte) (acc : Half) :
    (s.foldl accStep acc).toNat = (acc.toNat + (s.map BitVec.toNat).sum) % 65536 := by
  induction s generalizing acc with
  | nil => exact (Nat.mod_eq_of_lt acc.isLt).symm
  | cons b s ih =>
    rw [List.foldl_cons, ih, accStep, BitVec.toNat_ofNat, List.map_cons, List.sum_cons]
    omega

/-- Settles O8: `foldl_accStep_toNat` from 0. -/
theorem accumulatorComputesChecksum : Obligations.AccumulatorComputesChecksum := by
  intro s
  apply BitVec.eq_of_toNat_eq
  rw [foldl_accStep_toNat, checksum_toNat]
  simp

end Sys2Proof
end

section
/-! PROOFS. The consistent states by the negotiator's position: what each position says of the operation, the timer and
the transport mirror (10_state.md sections 3 and 4), and that this is the invariant `Consistent`. -/

namespace Sys2Proof.Machine

/-! ## Positions -/

/-- No operation outstanding and the timer off. -/
def AtRest (s : State) : Prop := s.cs = .idle ∧ s.tmrEn = false

/-- The timer is on and has ticks left. -/
def Running (s : State) : Prop := s.tmrEn = true ∧ s.tmr ≠ 0

/-- The transport is open and owes no answer. -/
def LinkUp (s : State) : Prop := s.tp.isOpen = true ∧ s.tp.wait = .none

/-- `EDL` is the frame length of the pending receive, whose payload fits `PBUF`. -/
def RecvLen (s : State) : Prop :=
  s.edl.toNat = s.pend.len.toNat + Config.dOvh ∧ s.pend.len.toNat ≤ Config.pbufCap

/-- An operation of the host (42_correlator.md R151 to R153). -/
def HostOp (s : State) : Prop :=
  s.pend.owner = .host ∧ (s.cs = .waitResp ∨ s.cs = .waitData ∧ s.pend.kind = .recv) ∧
    s.pend.tcat = (if s.pend.kind = .cmd then .command else .bulk) ∧ (s.pend.kind = .recv → RecvLen s)

/-- The negotiator's probe (44_baud_negotiator.md R233). -/
def ProbeOp (s : State) : Prop :=
  s.pend.owner = .bn ∧ s.pend.kind = .recv ∧ s.pend.len = Config.identLen ∧
    (s.cs = .waitResp ∨ s.cs = .waitData) ∧ RecvLen s

/-- The negotiator's change-baud command (R240). -/
def ChangeOp (s : State) : Prop :=
  s.pend.owner = .bn ∧ s.pend.kind = .cmd ∧ s.cs = .waitResp ∧ s.pend.tcat = .command

/-- An operation is outstanding: the host's on a locked link, the probe, or the change-baud command. -/
inductive Outstanding (s : State) : Prop
  | host (ns : s.ns = .locked) (op : HostOp s) (link : LinkUp s)
  | probe (ns : s.ns = .probing) (op : ProbeOp s) (link : LinkUp s) (nidx : s.nidx.toNat < 5) (txq : s.txq.toNat ≤ 1)
  | change (ns : s.ns = .changing) (op : ChangeOp s) (link : LinkUp s)

/-- No operation is outstanding. -/
inductive Quiescent (s : State) : Prop
  | ended (ns : s.ns = .untried ∨ s.ns = .exhausted ∨ s.ns = .failed) (rest : AtRest s) (wait : s.tp.wait ≠ .reserved)
  | locked (ns : s.ns = .locked) (rest : AtRest s) (link : LinkUp s)
  | closing (ns : s.ns = .preclose ∨ s.ns = .closingFail) (rest : AtRest s) (wait : s.tp.wait = .close)
      (nidx : s.nidx.toNat < 5)
  | opening (ns : s.ns = .opening) (rest : AtRest s) (wait : s.tp.wait = .open_) (nidx : s.nidx.toNat < 5)
      (txq : s.txq = 0)
  | settling (ns : s.ns = .settling) (idle : s.cs = .idle) (run : Running s) (link : LinkUp s)
  | closingChg (ns : s.ns = .closingChg) (rest : AtRest s) (wait : s.tp.wait = .close)
  | reopening (ns : s.ns = .reopening) (rest : AtRest s) (wait : s.tp.wait = .open_)

/-- What the invariant says whatever the position: the buffers, the write count, and a named operation kind. -/
def BuffersOk (s : State) : Prop :=
  s.rb.length ≤ Config.rbufCap ∧ (s.edl = 0 ∨ (Config.dOvh ≤ s.edl.toNat ∧ s.edl.toNat ≤ Config.rbufCap)) ∧
    Memory.wf s.pbuf ∧ (∀ c ∈ s.pbuf, c.1 < Config.pbufCap) ∧ s.txq.toNat ≤ 2 ∧ s.pend.kind ≠ .reserved

theorem Consistent.buffers {s : State} (h : Consistent s) : BuffersOk s :=
  ⟨h.rbFits, h.edlLegal, h.pbufForm, h.pbufFits, h.txqSmall, h.legal.kind⟩

/-! ## From the invariant to the position -/

/-- An operation of a consistent state is one of the three. -/
theorem Consistent.outstanding {s : State} (h : Consistent s) (busy : s.cs ≠ .idle) : Running s ∧ Outstanding s := by
  have run : Running s := ⟨h.timerOp busy, h.timerLive (h.timerOp busy)⟩
  have waits : s.cs = .waitResp ∨ s.cs = .waitData := by
    have named := h.legal.cs
    cases hcs : s.cs <;> simp_all
  refine ⟨run, ?_⟩
  cases owner : s.pend.owner with
  | host =>
    have ns := h.opHost busy owner
    refine .host ns ⟨owner, ?_, h.catHost busy owner, h.recvLen busy⟩ (h.tpUsed (by simp [ns]))
    exact waits.imp_right fun data => ⟨data, h.dataPhase data⟩
  | bn =>
    rcases h.opBn busy owner with ⟨ns, kind, len⟩ | ⟨ns, kind⟩
    · exact .probe ns ⟨owner, kind, len, waits, h.recvLen busy kind⟩ (h.tpUsed (by simp [ns]))
        (h.nidxAttempt (by simp [ns])) (h.txqProbing ns)
    · have resp : s.cs = .waitResp := waits.resolve_right fun data => by simpa [kind] using h.dataPhase data
      exact .change ns ⟨owner, kind, resp, h.catChange ns⟩ (h.tpUsed (by simp [ns]))

/-- A consistent state without an operation is in one of the other positions. -/
theorem Consistent.quiescent {s : State} (h : Consistent s) (idle : s.cs = .idle) : Quiescent s := by
  have rest (other : s.ns ≠ .settling) : AtRest s := by
    refine ⟨idle, ?_⟩
    cases timer : s.tmrEn with
    | false => rfl
    | true => exact absurd (h.timerUse timer idle) other
  cases ns : s.ns with
  | untried | exhausted | failed => exact .ended (by simp [ns]) (rest (by simp [ns])) h.legal.wait
  | preclose | closingFail =>
    exact .closing (by simp [ns]) (rest (by simp [ns])) (h.tpClosing (by simp [ns])) (h.nidxAttempt (by simp [ns]))
  | opening =>
    exact .opening ns (rest (by simp [ns])) (h.tpOpening (by simp [ns])) (h.nidxAttempt (by simp [ns]))
      (h.txqOpening ns)
  | probing => exact absurd idle (h.bnWaits (.inl ns)).1
  | changing => exact absurd idle (h.bnWaits (.inr ns)).1
  | settling =>
    have timer := (h.timerSettle ns).2
    exact .settling ns idle ⟨timer, h.timerLive timer⟩ (h.tpUsed (by simp [ns]))
  | closingChg => exact .closingChg ns (rest (by simp [ns])) (h.tpClosing (by simp [ns]))
  | reopening => exact .reopening ns (rest (by simp [ns])) (h.tpOpening (by simp [ns]))
  | locked => exact .locked ns (rest (by simp [ns])) (h.tpUsed (by simp [ns]))
  | reserved k => simpa [ns, nsReserved] using h.legal.ns

/-! ## From the position to the invariant -/

/-- The invariant of a state with an operation: the link is up and the timer runs, so what remains to say is which
operation belongs to which position. -/
theorem consistent_of_busy {s : State} (buf : BuffersOk s) (run : Running s) (link : LinkUp s)
    (waits : s.cs = .waitResp ∨ s.cs = .waitData)
    (position : s.ns = .locked ∧ s.pend.owner = .host ∨
      s.ns = .probing ∧ s.pend.owner = .bn ∧ s.pend.kind = .recv ∧ s.pend.len = Config.identLen ∧ s.nidx.toNat < 5 ∧
        s.txq.toNat ≤ 1 ∨
      s.ns = .changing ∧ s.pend.owner = .bn ∧ s.pend.kind = .cmd ∧ s.pend.tcat = .command)
    (data : s.cs = .waitData → s.pend.kind = .recv) (len : s.pend.kind = .recv → RecvLen s)
    (cat : s.pend.owner = .host → s.pend.tcat = if s.pend.kind = .cmd then .command else .bulk) : Consistent s := by
  obtain ⟨rbFits, edlLegal, pbufForm, pbufFits, txqSmall, kind⟩ := buf
  have busy : s.cs ≠ .idle := by rcases waits with h | h <;> simp [h]
  have cs : s.cs ≠ .reserved := by rcases waits with h | h <;> simp [h]
  have wait : s.tp.wait ≠ .reserved := by simp [link.2]
  have keeps : s.ns ≠ .settling ∧ s.ns ≠ .opening ∧ s.ns ≠ .reopening ∧ s.ns ≠ .preclose ∧ s.ns ≠ .closingFail ∧
      s.ns ≠ .closingChg ∧ nsReserved s.ns = false := by
    rcases position with ⟨ns, _⟩ | ⟨ns, _⟩ | ⟨ns, _⟩ <;> simp [ns, nsReserved]
  obtain ⟨settling, opening, reopening, preclose, closingFail, closingChg, ns⟩ := keeps
  exact
    { legal := ⟨cs, kind, ns, wait⟩
      rbFits := rbFits, edlLegal := edlLegal, pbufForm := pbufForm, pbufFits := pbufFits, txqSmall := txqSmall
      txqOpening := fun h => absurd h opening
      txqProbing := by rcases position with ⟨ns, _⟩ | ⟨ns, _, _, _, _, txq⟩ | ⟨ns, _⟩ <;> simp_all
      timerLive := fun _ => run.2
      timerOp := fun _ => run.1
      timerUse := fun _ idle => absurd idle busy
      timerSettle := fun h => absurd h settling
      opHost := by rcases position with ⟨ns, _⟩ | ⟨ns, owner, _⟩ | ⟨ns, owner, _⟩ <;> simp_all
      opBn := by rcases position with ⟨ns, owner⟩ | ⟨ns, _, kind, len, _⟩ | ⟨ns, _, kind, _⟩ <;> simp_all
      bnWaits := by rcases position with ⟨ns, _⟩ | ⟨ns, owner, _⟩ | ⟨ns, owner, _⟩ <;> simp_all
      dataPhase := data
      recvLen := fun _ => len
      catHost := fun _ => cat
      catChange := by rcases position with ⟨ns, _⟩ | ⟨ns, _⟩ | ⟨ns, _, _, cat⟩ <;> simp_all
      nidxAttempt := by rcases position with ⟨ns, _⟩ | ⟨ns, _, _, _, nidx, _⟩ | ⟨ns, _⟩ <;> simp_all
      tpOpening := fun h => h.elim (absurd · opening) (absurd · reopening)
      tpClosing := fun h => h.elim (absurd · preclose) (·.elim (absurd · closingFail) (absurd · closingChg))
      tpUsed := fun _ => link }

theorem Outstanding.consistent {s : State} (op : Outstanding s) (run : Running s) (buf : BuffersOk s) :
    Consistent s := by
  cases op with
  | host ns op link =>
    obtain ⟨owner, waits, cat, len⟩ := op
    exact consistent_of_busy buf run link (waits.imp_right (·.1)) (.inl ⟨ns, owner⟩) (by grind) len (fun _ => cat)
  | probe ns op link nidx txq =>
    obtain ⟨owner, kind, ident, waits, len⟩ := op
    exact consistent_of_busy buf run link waits (.inr (.inl ⟨ns, owner, kind, ident, nidx, txq⟩)) (fun _ => kind)
      (fun _ => len) (by simp [owner])
  | change ns op link =>
    obtain ⟨owner, kind, waits, cat⟩ := op
    exact consistent_of_busy buf run link (.inl waits) (.inr (.inr ⟨ns, owner, kind, cat⟩)) (by simp [waits])
      (by simp [kind]) (by simp [owner])

/-- The invariant of a state without an operation: what it says of operations is void. -/
theorem consistent_of_idle {s : State} (buf : BuffersOk s) (idle : s.cs = .idle) (ns : nsReserved s.ns = false)
    (wait : s.tp.wait ≠ .reserved) (noOp : s.ns ≠ .probing ∧ s.ns ≠ .changing)
    (live : s.tmrEn = true → s.tmr ≠ 0 ∧ s.ns = .settling) (settle : s.ns = .settling → s.tmrEn = true)
    (txq : s.ns = .opening → s.txq = 0)
    (nidx : s.ns = .preclose ∨ s.ns = .opening ∨ s.ns = .closingFail → s.nidx.toNat < 5)
    (opens : s.ns = .opening ∨ s.ns = .reopening → s.tp.wait = .open_)
    (closes : s.ns = .preclose ∨ s.ns = .closingFail ∨ s.ns = .closingChg → s.tp.wait = .close)
    (link : s.ns = .settling ∨ s.ns = .locked → LinkUp s) : Consistent s := by
  obtain ⟨rbFits, edlLegal, pbufForm, pbufFits, txqSmall, kind⟩ := buf
  obtain ⟨probing, changing⟩ := noOp
  exact
    { legal := ⟨by simp [idle], kind, ns, wait⟩
      rbFits := rbFits, edlLegal := edlLegal, pbufForm := pbufForm, pbufFits := pbufFits, txqSmall := txqSmall
      txqOpening := txq
      txqProbing := fun h => absurd h probing
      timerLive := fun timer => (live timer).1
      timerOp := fun busy => absurd idle busy
      timerUse := fun timer _ => (live timer).2
      timerSettle := fun h => ⟨idle, settle h⟩
      opHost := fun busy => absurd idle busy
      opBn := fun busy => absurd idle busy
      bnWaits := fun h => h.elim (absurd · probing) (absurd · changing)
      dataPhase := fun data => by simp [idle] at data
      recvLen := fun busy => absurd idle busy
      catHost := fun busy => absurd idle busy
      catChange := fun h => absurd h changing
      nidxAttempt := fun h => nidx (by simpa [probing] using h)
      tpOpening := opens
      tpClosing := closes
      tpUsed := fun h => link (by simpa [probing, changing] using h) }

theorem Quiescent.consistent {s : State} (position : Quiescent s) (buf : BuffersOk s) : Consistent s := by
  cases position with
  | ended ns rest wait =>
    obtain ⟨idle, timer⟩ := rest
    rcases ns with ns | ns | ns <;> apply consistent_of_idle buf idle <;> simp [ns, nsReserved, wait, timer]
  | locked ns rest link =>
    obtain ⟨idle, timer⟩ := rest
    apply consistent_of_idle buf idle <;> simp [ns, nsReserved, timer, link, link.2]
  | closing ns rest wait nidx =>
    obtain ⟨idle, timer⟩ := rest
    rcases ns with ns | ns <;> apply consistent_of_idle buf idle <;> simp [ns, nsReserved, wait, timer, nidx]
  | opening ns rest wait nidx txq =>
    obtain ⟨idle, timer⟩ := rest
    apply consistent_of_idle buf idle <;> simp [ns, nsReserved, wait, timer, nidx, txq]
  | settling ns idle run link =>
    obtain ⟨timer, live⟩ := run
    apply consistent_of_idle buf idle <;> simp_all [nsReserved, link.2]
  | closingChg ns rest wait =>
    obtain ⟨idle, timer⟩ := rest
    apply consistent_of_idle buf idle <;> simp [ns, nsReserved, wait, timer]
  | reopening ns rest wait =>
    obtain ⟨idle, timer⟩ := rest
    apply consistent_of_idle buf idle <;> simp [ns, nsReserved, wait, timer]

/-- Settles O58: after power-on the block is in an ended position with empty buffers (R290). -/
theorem invariantAtReset : Obligations.InvariantAtReset :=
  (Quiescent.ended (.inl rfl) ⟨rfl, rfl⟩ (by decide)).consistent
    ⟨Nat.zero_le _, .inl rfl, reset_pbuf_wf, fun _ listed => absurd listed List.not_mem_nil, by decide, by decide⟩

end Sys2Proof.Machine
end

section
/-! PROOFS. How an operation ends (42_correlator.md R164, R165; 44_baud_negotiator.md R235 to R245): one equation for
each
owner, position and status. -/

namespace Sys2Proof.Machine

/-! ## Completion -/

/-- A host's operation ends with its result under its own kind. -/
theorem complete_of_owner_host {r : OpResult} {s : State} (owner : s.pend.owner = .host)
    (named : s.pend.kind ≠ .reserved) :
    complete r s = .ok (emitResult (kindCode s.pend.kind) r { s with cs := .idle, tmrEn := false }) := by
  have noted : noteKind { s with cs := .idle, tmrEn := false } = { s with cs := .idle, tmrEn := false } :=
    noteKind_legal named
  rw [complete, owner]
  exact congrArg (fun u => Except.ok (emitResult (kindCode s.pend.kind) r u)) noted

/-- An operation of the negotiator ends in `bnOpDone`, with no fault bit touched in a named position. -/
theorem complete_of_owner_bn_named {r : OpResult} {s : State} (owner : s.pend.owner = .bn)
    (named : nsReserved s.ns = false) :
    complete r s = bnOpDone r { s with cs := .idle, tmrEn := false } := by
  rw [complete_of_owner_bn owner, noteNs_legal (s := { s with cs := .idle, tmrEn := false }) named]

/-- The change-baud command acknowledged: the settle delay starts (R241). -/
theorem complete_of_change_ok {r : OpResult} {s : State} (owner : s.pend.owner = .bn) (changing : s.ns = .changing)
    (ok : r.status = .ok) :
    complete r s = .ok (startSettle { s with cs := .idle, tmrEn := false }) := by
  rw [complete_of_owner_bn_named owner (by rw [changing]; rfl), bnOpDone, changing]
  exact if_pos ok

/-- The change-baud command failed: the negotiation ends in FAILED with its error (R245). -/
theorem complete_of_change_failed {r : OpResult} {s : State} (owner : s.pend.owner = .bn)
    (changing : s.ns = .changing) (failed : r.status ≠ .ok) :
    complete r s = .ok (negotiationFailed r { s with cs := .idle, tmrEn := false }) := by
  rw [complete_of_owner_bn_named owner (by rw [changing]; rfl), bnOpDone, changing]
  exact if_neg failed

/-- The state in which the identity packet has been read and the candidate's rate locked (R235, R238). -/
def identified (bytes : List Byte) (dcsum : Bool) (b : Word) (s : State) : State :=
  { s with ident := identityOf bytes dcsum, lockBaud := b }

theorem bnOpDone_of_probe_ok {r : OpResult} {s : State} (probing : s.ns = .probing) (ok : r.status = .ok) :
    bnOpDone r s = probeSucceeded r.dcsum s := by
  rw [bnOpDone, probing]
  exact if_pos ok

theorem probeSucceeded_eq {dcsum : Bool} {s : State} {bytes : List Byte} {b : Word}
    (read : memRead s.pbuf 0 24 = .ok bytes) (rate : Config.baudList[s.nidx.toNat]? = some b) :
    probeSucceeded dcsum s = .ok (
      if b = s.target then lockAt b (identified bytes dcsum b s) else startChange (identified bytes dcsum b s)) := by
  have captured : captureIdentity dcsum s = .ok { s with ident := identityOf bytes dcsum } := by
    rw [captureIdentity, read]
  have locked : candidate { s with ident := identityOf bytes dcsum } = .ok b := candidate_ok.2 rate
  rw [probeSucceeded, captured, andThen_ok_left, locked]
  exact (apply_ite Except.ok _ _ _).symm

/-- The probe succeeded: lock at the candidate's rate, or change to the target (R235, R239, R240). -/
theorem complete_of_probe_ok {r : OpResult} {s : State} {bytes : List Byte} {b : Word} (owner : s.pend.owner = .bn)
    (probing : s.ns = .probing) (ok : r.status = .ok) (read : memRead s.pbuf 0 24 = .ok bytes)
    (rate : Config.baudList[s.nidx.toNat]? = some b) :
    complete r s = .ok (
      if b = s.target then lockAt b (identified bytes r.dcsum b { s with cs := .idle, tmrEn := false })
      else startChange (identified bytes r.dcsum b { s with cs := .idle, tmrEn := false })) := by
  rw [complete_of_owner_bn_named owner (by rw [probing]; rfl),
    bnOpDone_of_probe_ok (s := { s with cs := .idle, tmrEn := false }) probing ok,
    probeSucceeded_eq (s := { s with cs := .idle, tmrEn := false }) read rate]

/-! ## Transport answers -/

theorem afterOpen_opening {s : State} (ns : s.ns = .opening) (ok : Bool) :
    afterOpen ok s = if ok then .ok (startProbe s) else nextCandidate s := by
  rw [afterOpen, ns]

theorem afterOpen_reopening {s : State} (ns : s.ns = .reopening) (ok : Bool) :
    afterOpen ok s =
      if ok then .ok (lockAt s.target s) else .ok (negotiationFailed { status := .transportError } s) := by
  rw [afterOpen, ns]

/-- An open that no negotiation waits for changes nothing more (R249). -/
theorem afterOpen_other {s : State} (notOpening : s.ns ≠ .opening) (notReopening : s.ns ≠ .reopening) (ok : Bool) :
    afterOpen ok s = .ok s := by
  unfold afterOpen
  split
  · next ns => exact absurd ns notOpening
  · next ns => exact absurd ns notReopening
  all_goals rfl

theorem afterClose_preclose {s : State} (ns : s.ns = .preclose) : afterClose s = openAttempt s := by
  rw [afterClose, ns]

theorem afterClose_closingFail {s : State} (ns : s.ns = .closingFail) : afterClose s = nextCandidate s := by
  rw [afterClose, ns]

theorem afterClose_closingChg {s : State} (ns : s.ns = .closingChg) :
    afterClose s = .ok (openTransport s.target .reopening s) := by
  rw [afterClose, ns]

/-- A close that no negotiation waits for changes nothing more (R249). -/
theorem afterClose_other {s : State} (notPreclose : s.ns ≠ .preclose) (notClosingFail : s.ns ≠ .closingFail)
    (notClosingChg : s.ns ≠ .closingChg) : afterClose s = .ok s := by
  unfold afterClose
  split
  · next ns => exact absurd ns notPreclose
  · next ns => exact absurd ns notClosingFail
  · next ns => exact absurd ns notClosingChg
  all_goals rfl

/-- The mirror after an answer to an open (R249). -/
def openAnswered (ok : Bool) (s : State) : State := { s with tp := { s.tp with wait := .none, isOpen := ok } }

/-- The mirror after an answer to a close; unanswered writes are gone (R249). -/
def closeAnswered (s : State) : State := { s with tp := { s.tp with wait := .none, isOpen := false }, txq := 0 }

/-- OPEN_DONE while an open is outstanding, in a named position. -/
theorem onOpenDone_of_wait {s : State} (wait : s.tp.wait = .open_) (named : nsReserved s.ns = false) (ok : Bool) :
    onOpenDone ok s = afterOpen ok (openAnswered ok s) := by
  rw [onOpenDone, if_neg (not_not.2 wait), openAnswered,
    noteNs_legal (s := { s with tp := { s.tp with wait := .none, isOpen := ok } }) named]

/-- CLOSE_DONE while a close is outstanding, in a named position. -/
theorem onCloseDone_of_wait {s : State} (wait : s.tp.wait = .close) (named : nsReserved s.ns = false) :
    onCloseDone s = afterClose (closeAnswered s) := by
  rw [onCloseDone, if_neg (not_not.2 wait), closeAnswered,
    noteNs_legal (s := { s with tp := { s.tp with wait := .none, isOpen := false }, txq := 0 }) named]

/-- Settles O35: one equation of the four above for each clause. -/
theorem completionOutcomes : Obligations.CompletionOutcomes := by
  intro r s
  refine ⟨fun legal owner => ?_, fun owner probing failed => ?_, fun owner changing ok => ?_,
    fun owner changing failed => ?_⟩
  · rw [complete_of_owner_host owner legal.kind]
    rfl
  · rw [complete_of_probe_failed owner probing failed]
    rfl
  · rw [complete_of_change_ok owner changing ok]
    rfl
  · rw [complete_of_change_failed owner changing failed]
    rfl

end Sys2Proof.Machine
end

section
/-! PROOFS. From a consistent state every operation but a SENDPAY of unwritten bytes answers a next state, which is
consistent again, with no fault bit touched and only allowed results emitted. -/

namespace Sys2Proof.Machine

/-! ## The noise policy -/

/-- RETAIN keeps every byte (41_frame_codec.md R126). -/
theorem applyPolicy_retain (s : State) : applyPolicy .retain s = s := by
  unfold applyPolicy
  cases noiseLength s.edl s.rb <;> rfl

/-- RESYNC drops the noise at the head and counts it (R127). -/
theorem applyPolicy_resync (s : State) :
    applyPolicy .resync s = { s with
      rb := s.rb.drop (noiseLength s.edl s.rb)
      noiseDrop := s.noiseDrop + BitVec.ofNat 32 (noiseLength s.edl s.rb) } := by
  unfold applyPolicy
  cases noiseLength s.edl s.rb with
  | zero => simp
  | succ k => rfl

/-! ## Safe answers -/

/-- The output of `t` is that of `s` and further events the table of results allows (60_exceptions.md R261). -/
def EmitsAllowed (s t : State) : Prop := ∃ new, t.out = s.out ++ new ∧ new.all eventAllowed = true

/-- `t` is a consistent state that `s` may go to. -/
def Safe (s t : State) : Prop := Consistent t ∧ t.stateBad = s.stateBad ∧ EmitsAllowed s t

/-- An operation that started in `s` answers a safe state. -/
def SafeRun (s : State) (r : Except Fault State) : Prop := ∃ t, r = .ok t ∧ Safe s t

theorem EmitsAllowed.refl (s : State) : EmitsAllowed s s := ⟨[], (List.append_nil _).symm, rfl⟩

theorem EmitsAllowed.trans {s t u : State} (st : EmitsAllowed s t) (tu : EmitsAllowed t u) : EmitsAllowed s u := by
  obtain ⟨a, ha, alla⟩ := st
  obtain ⟨b, hb, allb⟩ := tu
  exact ⟨a ++ b, by rw [hb, ha, List.append_assoc], by rw [List.all_append, alla, allb]; rfl⟩

theorem Safe.trans {s t u : State} (st : Safe s t) (tu : Safe t u) : Safe s u := by
  obtain ⟨-, bad, out⟩ := st
  obtain ⟨next, bad', out'⟩ := tu
  exact ⟨next, bad'.trans bad, out.trans out'⟩

/-- A consistent answer that emits nothing. -/
theorem SafeRun.silent {s t : State} (next : Consistent t) (bad : t.stateBad = s.stateBad) (out : t.out = s.out) :
    SafeRun s (.ok t) :=
  ⟨t, rfl, next, bad, [], by rw [out, List.append_nil], rfl⟩

/-- A consistent answer that emits the events `new`. -/
theorem SafeRun.emits {s t : State} (next : Consistent t) (bad : t.stateBad = s.stateBad) (new : List OutEvent)
    (out : t.out = s.out ++ new) (allowed : new.all eventAllowed = true) : SafeRun s (.ok t) :=
  ⟨t, rfl, next, bad, new, out, allowed⟩

/-- A consistent answer that emits one result the table lists. -/
theorem SafeRun.result {s t : State} (next : Consistent t) (bad : t.stateBad = s.stateBad) {req : BitVec 3}
    {r : OpResult} (allowed : statusAllowed req r.status r.tcat = true)
    (out : t.out = s.out ++ [.result (resultOf req r)]) : SafeRun s (.ok t) :=
  .emits next bad [.result (resultOf req r)] out ((Bool.and_true _).trans allowed)

theorem SafeRun.andThen {s : State} {r : Except Fault State} {f : State → Except Fault State} (first : SafeRun s r)
    (then_ : ∀ u, Consistent u → SafeRun u (f u)) : SafeRun s (andThen r f) := by
  obtain ⟨u, rfl, safe⟩ := first
  obtain ⟨t, run, safe'⟩ := then_ u safe.1
  exact ⟨t, run, safe.trans safe'⟩

/-! ## Updates that leave the position alone -/

theorem Consistent.emitResult {s : State} (h : Consistent s) (req : BitVec 3) (r : OpResult) :
    Consistent (emitResult req r s) :=
  { h with legal := { h.legal with } }

theorem Consistent.withRb {s : State} (h : Consistent s) {rb : List Byte} (fits : rb.length ≤ Config.rbufCap) :
    Consistent { s with rb := rb } :=
  { h with legal := { h.legal with }, rbFits := fits }

theorem Consistent.withPbuf {s : State} (h : Consistent s) {a : Nat} {bytes : List Byte} {m : Memory}
    (write : memWrite s.pbuf a bytes = .ok m) : Consistent { s with pbuf := m } :=
  { h with
    legal := { h.legal with }
    pbufForm := memWrite_wf write h.pbufForm
    pbufFits := memWrite_fits write h.pbufFits }

theorem Consistent.withPort {s : State} (h : Consistent s) (port : List (List PortItem)) :
    Consistent { s with port := port } :=
  { h with legal := { h.legal with } }

/-- One write fewer unanswered. -/
theorem Consistent.txqPred {s : State} (h : Consistent s) (some_ : s.txq ≠ 0) :
    Consistent { s with txq := s.txq - 1 } := by
  have fewer : (s.txq - 1).toNat ≤ s.txq.toNat := by
    have : s.txq.toNat ≠ 0 := fun zero => some_ (BitVec.eq_of_toNat_eq zero)
    bv_omega
  exact
    { h with
      legal := { h.legal with }
      txqSmall := fewer.trans h.txqSmall
      txqOpening := fun ns => absurd (h.txqOpening ns) some_
      txqProbing := fun ns => fewer.trans (h.txqProbing ns) }

/-- A running timer that does not reach 0. -/
theorem Consistent.withTmr {s : State} (h : Consistent s) {tmr : Word} (live : tmr ≠ 0) :
    Consistent { s with tmr := tmr } :=
  { h with legal := { h.legal with }, timerLive := fun _ => live }

/-! ## The ends of operations -/

/-- The results an outstanding operation can end with (60_exceptions.md R261): a time-out carries its category. -/
def AnswerTo (s : State) (r : OpResult) : Prop :=
  r.status = .ok ∨ r.status = .duplicateId ∨ r.status = .deviceNack ∨ r.status = .transportError ∨
    r.status = .timeout ∧ r.tcat = s.pend.tcat

/-- The answers to a host's operation are in the table under its kind. -/
theorem AnswerTo.allowed {s : State} {r : OpResult} (answer : AnswerTo s r) (named : s.pend.kind ≠ .reserved)
    (cat : s.pend.tcat = if s.pend.kind = .cmd then .command else .bulk) :
    statusAllowed (kindCode s.pend.kind) r.status r.tcat = true := by
  cases kind : s.pend.kind with
  | reserved => exact absurd kind named
  | cmd | recv | sendpay =>
    rw [kind] at cat
    rcases answer with st | st | st | st | ⟨st, late⟩
    iterate 4 · rw [st]; rfl
    · rw [st, late, cat]; rfl

/-- The errors of the change-baud command are in the table under NEGOTIATE. -/
theorem AnswerTo.allowed_negotiate {s : State} {r : OpResult} (answer : AnswerTo s r)
    (cat : s.pend.tcat = .command) : statusAllowed reqNegotiate r.status r.tcat = true := by
  rcases answer with st | st | st | st | ⟨st, late⟩
  iterate 4 · rw [st]; rfl
  · rw [st, late, cat]; rfl

/-- Each of the five candidates has a rate (10_state.md R30). -/
theorem baudList_of_lt {i : Nat} (lt : i < 5) : ∃ b, Config.baudList[i]? = some b :=
  ⟨_, List.getElem?_eq_getElem (l := Config.baudList) lt⟩

/-- However an operation ends, the negotiator goes on from a position of the invariant. The probe's success reads the
identity from `PBUF`, so the bytes must be there. -/
theorem Outstanding.complete_safe {s : State} {r : OpResult} (op : Outstanding s) (buf : BuffersOk s)
    (answer : AnswerTo s r)
    (identity : s.ns = .probing → r.status = .ok → ∃ bytes, memRead s.pbuf 0 24 = .ok bytes) :
    SafeRun s (complete r s) := by
  obtain ⟨rbFits, edlLegal, pbufForm, pbufFits, txqSmall, named⟩ := buf
  have cmdLive : Config.tCmd ≠ 0 := by decide
  have settleLive : Config.tSettle ≠ 0 := by decide
  cases op with
  | host ns op link =>
    obtain ⟨owner, waits, cat, len⟩ := op
    rw [complete_of_owner_host owner named]
    refine .result (Quiescent.consistent (.locked ns ⟨rfl, rfl⟩ link) ?_) rfl (answer.allowed named cat) rfl
    exact ⟨rbFits, edlLegal, pbufForm, pbufFits, txqSmall, named⟩
  | probe ns op link nidx txq =>
    obtain ⟨owner, kind, ident, waits, len⟩ := op
    by_cases ok : r.status = .ok
    · obtain ⟨bytes, read⟩ := identity ns ok
      obtain ⟨b, rate⟩ := baudList_of_lt nidx
      rw [complete_of_probe_ok owner ns ok read rate]
      split
      · refine .result (Quiescent.consistent (.locked rfl ⟨rfl, rfl⟩ link) ?_) rfl
          (req := reqNegotiate) (r := { status := .ok, value := b }) rfl rfl
        exact ⟨rbFits, edlLegal, pbufForm, pbufFits, txqSmall, named⟩
      · refine .emits (Outstanding.consistent (.change rfl ⟨rfl, rfl, rfl, rfl⟩ link) ⟨rfl, cmdLive⟩ ?_) rfl
          [.rxFlush, .txFrame (encodeCommand (opcodeOf .changeBaudrate) s.target)] rfl rfl
        refine ⟨rbFits, edlLegal, pbufForm, pbufFits, ?_, PendKind.noConfusion⟩
        change (s.txq + 1).toNat ≤ 2
        bv_omega
    · rw [complete_of_probe_failed owner ns ok]
      refine .emits (Quiescent.consistent (.closing (.inr rfl) ⟨rfl, rfl⟩ rfl nidx) ?_) rfl [.closeTp] rfl rfl
      exact ⟨rbFits, edlLegal, pbufForm, pbufFits, txqSmall, named⟩
  | change ns op link =>
    obtain ⟨owner, kind, waits, cat⟩ := op
    by_cases ok : r.status = .ok
    · rw [complete_of_change_ok owner ns ok]
      refine .silent (Quiescent.consistent (.settling rfl rfl ⟨rfl, settleLive⟩ link) ?_) rfl rfl
      exact ⟨rbFits, edlLegal, pbufForm, pbufFits, txqSmall, named⟩
    · rw [complete_of_change_failed owner ns ok]
      refine .result (Quiescent.consistent (.ended (.inr (.inr rfl)) ⟨rfl, rfl⟩ ?_) ?_) rfl
        (answer.allowed_negotiate cat) rfl
      · exact fun reserved => TpWait.noConfusion (link.2.symm.trans reserved)
      · exact ⟨rbFits, edlLegal, pbufForm, pbufFits, txqSmall, named⟩

/-- The same from a consistent state. -/
theorem Consistent.complete_safe {s : State} {r : OpResult} (h : Consistent s) (busy : s.cs ≠ .idle)
    (answer : AnswerTo s r)
    (identity : s.ns = .probing → r.status = .ok → ∃ bytes, memRead s.pbuf 0 24 = .ok bytes) :
    SafeRun s (complete r s) :=
  (h.outstanding busy).2.complete_safe h.buffers answer identity

/-- The position of an operation does not depend on the timer. -/
theorem Outstanding.withTimer {s : State} (op : Outstanding s) (tmr : Word) (on : Bool) :
    Outstanding { s with tmr := tmr, tmrEn := on } := by
  cases op with
  | host ns op link => exact .host ns op link
  | probe ns op link nidx txq => exact .probe ns op link nidx txq
  | change ns op link => exact .change ns op link

/-! ## The receive side -/

theorem nackResult_status (d : DecodedResponse) :
    (nackResult d).status = .duplicateId ∨ (nackResult d).status = .deviceNack := by
  unfold nackResult
  split
  · exact .inl rfl
  · exact .inr rfl

/-- An ACK to a receive opens its data phase, so nothing but a receive is in a data phase (42_correlator.md R157). -/
theorem Consistent.openDataPhase {s : State} (h : Consistent s) (waits : s.cs = .waitResp) (recv : s.pend.kind = .recv)
    (ackp : Word) (rcsum : Bool) :
    Consistent { s with cs := .waitData, pend := { s.pend with ackp := ackp, rcsum := rcsum } } := by
  obtain ⟨run, op⟩ := h.outstanding (by simp [waits])
  refine Outstanding.consistent ?_ run h.buffers
  cases op with
  | host ns op link =>
    obtain ⟨owner, -, cat, len⟩ := op
    exact .host ns ⟨owner, .inr ⟨rfl, recv⟩, cat, len⟩ link
  | probe ns op link nidx txq =>
    obtain ⟨owner, kind, ident, -, len⟩ := op
    exact .probe ns ⟨owner, kind, ident, .inr rfl, len⟩ link nidx txq
  | change ns op link =>
    obtain ⟨-, cmd, -⟩ := op
    rw [recv] at cmd
    cases cmd

theorem Consistent.deliverResponse_safe {s : State} (h : Consistent s) (d : DecodedResponse) :
    SafeRun s (deliverResponse d s) := by
  unfold deliverResponse
  split
  · rw [noteCs_legal h.legal.cs]
    exact .silent { h with legal := { h.legal with } } rfl rfl
  · next waiting =>
    have waits : s.cs = .waitResp := not_not.1 waiting
    have busy : s.cs ≠ .idle := by simp [waits]
    split
    · have failed : (nackResult d).status ≠ .ok := by
        rcases nackResult_status d with status | status <;> simp [status]
      refine h.complete_safe busy ?_ (fun _ ok => absurd ok failed)
      exact (nackResult_status d).elim (fun dup => .inr (.inl dup)) (fun nack => .inr (.inr (.inl nack)))
    · split
      · next recv => exact .silent (h.openDataPhase waits recv _ _) rfl rfl
      · next notRecv =>
        rw [noteKind_legal h.legal.kind]
        refine h.complete_safe busy (.inl rfl) (fun probing _ => ?_)
        have kind : s.pend.kind = .recv := by
          rcases h.opBn busy (h.bnWaits (.inl probing)).2 with ⟨-, kind, -⟩ | ⟨changing, -⟩
          · exact kind
          · rw [probing] at changing
            cases changing
        exact absurd kind notRecv

/-- A Data frame of the expected length is written to `PBUF`, whose range its receive was checked against, and the
probe's holds the identity registers. -/
theorem Consistent.deliverData_safe {s : State} (h : Consistent s) (d : DecodedData)
    (len : d.payload.length + 6 = s.edl.toNat) : SafeRun s (deliverData d s) := by
  unfold deliverData
  split
  · rw [noteCs_legal h.legal.cs]
    exact .silent { h with legal := { h.legal with } } rfl rfl
  · next waiting =>
    have waits : s.cs = .waitData := not_not.1 waiting
    have busy : s.cs ≠ .idle := by simp [waits]
    have recv := h.dataPhase waits
    obtain ⟨edl, fits⟩ := h.recvLen busy recv
    have payload : d.payload.length = s.pend.len.toNat := by
      simp only [Config.dOvh] at edl
      omega
    have write : memWrite s.pbuf 0 d.payload = .ok (pbufSetBytes s.pbuf 0 d.payload) :=
      (memWrite_ok _ _ _ _).2 ⟨by omega, rfl⟩
    rw [write]
    have next : Consistent { s with pbuf := pbufSetBytes s.pbuf 0 d.payload } := h.withPbuf write
    refine next.complete_safe busy (.inl rfl) (fun probing _ => ?_)
    have ident : s.pend.len = Config.identLen := by
      rcases h.opBn busy (h.bnWaits (.inl probing)).2 with ⟨-, -, ident⟩ | ⟨changing, -⟩
      · exact ident
      · rw [show s.ns = .probing from probing] at changing
        cases changing
    have long : 24 ≤ d.payload.length := by
      rw [payload, ident]
      exact Config.identLen_bounds.1
    exact ⟨_, memRead_take_of_memWrite write long⟩

theorem Consistent.applyPolicy_safe {s : State} (h : Consistent s) (p : NoisePolicy) : Safe s (applyPolicy p s) := by
  cases p with
  | retain =>
    rw [applyPolicy_retain]
    exact ⟨h, rfl, .refl s⟩
  | resync =>
    have fits : (s.rb.drop (noiseLength s.edl s.rb)).length ≤ Config.rbufCap :=
      (List.drop_sublist _ _).length_le.trans h.rbFits
    rw [applyPolicy_resync]
    exact ⟨{ h with legal := { h.legal with }, rbFits := fits }, rfl, .refl s⟩

theorem Consistent.extractResp_safe {s : State} (h : Consistent s) : SafeRun s (extractResp s) :=
  (h.withRb ((List.drop_sublist _ _).length_le.trans h.rbFits)).deliverResponse_safe _

theorem Consistent.extractData_safe {s : State} (h : Consistent s) (ready : dataReady s.edl s.rb = true) :
    SafeRun s (extractData s) := by
  obtain ⟨long, held⟩ := dataReady_length ready
  refine (h.withRb ((List.drop_sublist _ _).length_le.trans h.rbFits)).deliverData_safe _ ?_
  simp only [decodeData, List.length_take, List.length_drop]
  omega

theorem Consistent.extractLoop_safe (p : NoisePolicy) (fuel : Nat) :
    ∀ {s : State}, Consistent s → SafeRun s (extractLoop p fuel s) := by
  induction fuel with
  | zero => exact fun h => .silent h rfl rfl
  | succ fuel ih =>
    intro s h
    have policy := h.applyPolicy_safe p
    have clean := policy.1
    have rest : SafeRun (applyPolicy p s) (extractLoop p (fuel + 1) s) := by
      rw [extractLoop]
      split
      · exact clean.extractResp_safe.andThen fun _ => ih
      · split
        · next ready => exact (clean.extractData_safe ready).andThen fun _ => ih
        · exact .silent clean rfl rfl
    obtain ⟨t, run, safe⟩ := rest
    exact ⟨t, run, policy.trans safe⟩

theorem Consistent.storeByte {s : State} (h : Consistent s) (b : Byte) : Safe s (storeByte b s) := by
  unfold Machine.storeByte
  split
  · exact ⟨{ h with legal := { h.legal with } }, rfl, .refl s⟩
  · next room =>
    have fits : (s.rb ++ [b]).length ≤ Config.rbufCap := by
      have notFull : s.rb.length ≠ Config.rbufCap := fun full => room ((Config.rbufFull_iff _).2 full)
      have := h.rbFits
      simp only [List.length_append, List.length_singleton]
      omega
    exact ⟨h.withRb fits, rfl, .refl s⟩

/-- A chunk is byte after byte, each followed by extractions (41_frame_codec.md R122). -/
theorem Consistent.feed_safe (bytes : List Byte) : ∀ {s : State}, Consistent s → SafeRun s (feed bytes s) := by
  induction bytes with
  | nil => exact fun h => .silent h rfl rfl
  | cons b bytes ih =>
    intro s h
    have stored := h.storeByte b
    obtain ⟨t, run, safe⟩ := (stored.1.extractLoop_safe Config.noisePolicy _).andThen fun _ => ih
    exact ⟨t, run, stored.trans safe⟩

end Sys2Proof.Machine
end

section
/-! PROOFS. The safety of every instruction and of every step from a consistent state: requests, events, and the three
statements about the invariant. -/

namespace Sys2Proof.Machine

/-! ## Requests -/

/-- R150's outcomes where no register read is reserved: a refusal that changes only the result, or the issue on a free
link. -/
theorem acceptRequest_legal {req : BitVec 3} {bad : Bool} {go : State → Except Fault State} {s : State}
    (legal : Legal s) :
    acceptRequest req bad go s =
      if corrBlocked s then .ok (reject req .busy s)
      else if !ready s then .ok (reject req .notReady s)
      else if bad then .ok (reject req .badRequest s)
      else go s := by
  simp only [acceptRequest, noteCs_legal legal.cs, noteNs_legal legal.ns]

/-- A request that is neither blocked nor unready has a free link. -/
theorem linkFree_of_accepted {s : State} (free : ¬ corrBlocked s = true) (up : ¬ (!ready s) = true) : LinkFree s := by
  obtain ⟨cs, txq, ns, tp⟩ := (accept_conditions s).1 ⟨by simpa using free, by simpa using up⟩
  exact ⟨cs, txq, ns, tp⟩

/-- A correlator request is refused with BUSY, NOT_READY or BAD_REQUEST, or accepted on a free link. -/
theorem acceptRequest_cases {req : BitVec 3} {bad : Bool} {go : State → Except Fault State} {s : State}
    (legal : Legal s) :
    (∃ st : Status, (st = .busy ∨ st = .notReady ∨ st = .badRequest ∧ bad = true) ∧
      acceptRequest req bad go s = .ok (reject req st s)) ∨
    (LinkFree s ∧ bad = false ∧ acceptRequest req bad go s = go s) := by
  rw [acceptRequest_legal legal]
  split
  · exact .inl ⟨_, .inl rfl, rfl⟩
  · next free =>
    split
    · exact .inl ⟨_, .inr (.inl rfl), rfl⟩
    · next up =>
      cases bad with
      | true => exact .inl ⟨_, .inr (.inr ⟨rfl, rfl⟩), rfl⟩
      | false => exact .inr ⟨linkFree_of_accepted free up, rfl, rfl⟩

/-- An operation of the host issued on a free, consistent link: `edl` is what a receive sets, or as before. -/
theorem Consistent.issue_safe {s : State} (h : Consistent s) (free : LinkFree s) {p : Pending} {t edl : Word}
    {frame : List Byte} (owner : p.owner = .host) (named : p.kind ≠ .reserved)
    (cat : p.tcat = if p.kind = .cmd then .command else .bulk) (live : t ≠ 0)
    (edlLegal : edl = 0 ∨ (Config.dOvh ≤ edl.toNat ∧ edl.toNat ≤ Config.rbufCap))
    (recv : p.kind = .recv → edl.toNat = p.len.toNat + Config.dOvh ∧ p.len.toNat ≤ Config.pbufCap) :
    SafeRun s (.ok (issue p t frame { s with edl := edl })) := by
  obtain ⟨rbFits, -, pbufForm, pbufFits, -, -⟩ := h.buffers
  have link : LinkUp s := h.tpUsed (.inr (.inr (.inr free.ns)))
  refine .emits (Outstanding.consistent (.host free.ns ⟨owner, .inl rfl, cat, recv⟩ link) ⟨rfl, live⟩ ?_) rfl
    [.rxFlush, .txFrame frame] rfl rfl
  refine ⟨rbFits, edlLegal, pbufForm, pbufFits, ?_, named⟩
  change (s.txq + 1).toNat ≤ 2
  rw [free.txq]
  decide

/-- A refusal of a correlator request is a result the table lists. -/
theorem Consistent.reject_safe {s : State} (h : Consistent s) {req : BitVec 3} {st : Status}
    (allowed : statusAllowed req st .command = true) : SafeRun s (.ok (reject req st s)) :=
  .result (h.emitResult req _) rfl (req := req) (r := { status := st }) allowed rfl

theorem orDefault_ne_zero {tmo dflt : Word} (live : dflt ≠ 0) : orDefault tmo dflt ≠ 0 := by
  unfold orDefault
  split
  · exact live
  · next nonzero => exact nonzero

theorem Consistent.requestSend_safe {s : State} (h : Consistent s) (op : Byte) (param tmo : Word) :
    SafeRun s (requestSend op param tmo s) := by
  rcases acceptRequest_cases (req := 0) (bad := false) (go := fun s => .ok (issueSend op param tmo s)) h.legal with
    ⟨st, cause, refused⟩ | ⟨free, -, issued⟩
  · rw [requestSend, refused]
    rcases cause with rfl | rfl | ⟨-, ⟨⟩⟩ <;> exact h.reject_safe rfl
  · rw [requestSend, issued]
    exact h.issue_safe free rfl PendKind.noConfusion rfl (orDefault_ne_zero (by decide)) h.edlLegal
      (fun recv => PendKind.noConfusion recv)

/-- The check of a receive that passed (42_correlator.md R150). -/
theorem recvBad_eq_false_iff {len tmo : Word} :
    recvBad len tmo = false ↔ tmo ≠ 0 ∧ len.toNat ≤ Config.pbufCap ∧ len.toNat + 6 ≤ Config.rbufCap := by
  simp only [recvBad, Config.dOvh, Bool.or_eq_false_iff, Bool.not_eq_false', decide_eq_false_iff_not,
    Config.fitsPbuf_iff, Config.fitsRbuf_iff, and_assoc]

/-- `EDL` holds the frame length of a payload that fits `RB` without wrapping. -/
theorem edlOf_toNat {len : Word} (fits : len.toNat + 6 ≤ Config.rbufCap) : (edlOf len).toNat = len.toNat + 6 := by
  have cap := Config.rbufCap_bounds.2
  rw [edlOf, Config.dOvh, BitVec.toNat_ofNat, Nat.mod_eq_of_lt (by omega)]

theorem Consistent.requestRecv_safe {s : State} (h : Consistent s) (op : Byte) (param len tmo : Word) :
    SafeRun s (requestRecv op param len tmo s) := by
  rcases acceptRequest_cases (req := 1) (bad := recvBad len tmo)
      (go := fun s => .ok (issueRecv op param len tmo s)) h.legal with ⟨st, cause, refused⟩ | ⟨free, good, issued⟩
  · rw [requestRecv, refused]
    rcases cause with rfl | rfl | ⟨rfl, -⟩ <;> exact h.reject_safe rfl
  · obtain ⟨live, fitsPbuf, fitsRbuf⟩ := recvBad_eq_false_iff.1 good
    have edl := edlOf_toNat fitsRbuf
    rw [requestRecv, issued]
    refine h.issue_safe free rfl PendKind.noConfusion rfl live (.inr ?_) (fun _ => ⟨edl, fitsPbuf⟩)
    rw [edl]
    exact ⟨Nat.le_add_left _ _, fitsRbuf⟩

/-- The snapshot of `PBUF` fails only at a byte that nothing has written (70_reset_and_hazards.md R300). -/
theorem pbufGetBytes_unwritten (n : Nat) : ∀ {m : Memory} {a : Nat} {e : Fault}, pbufGetBytes m a n = .error e →
    ∃ k, a ≤ k ∧ k < a + n ∧ e = .pbufUnwritten k ∧ pbufGet m k = none := by
  induction n with
  | zero => intro m a e h; cases h
  | succ n ih =>
    intro m a e h
    rw [pbufGetBytes] at h
    split at h
    · next missing =>
      cases h
      exact ⟨a, le_refl a, by omega, rfl, missing⟩
    · split at h
      · next read =>
        cases h
        obtain ⟨k, low, high, fault, missing⟩ := ih read
        exact ⟨k, by omega, by omega, fault, missing⟩
      · cases h

theorem memRead_unwritten {m : Memory} {a n : Nat} {e : Fault} (fits : a + n ≤ Config.pbufCap)
    (h : memRead m a n = .error e) : ∃ k, a ≤ k ∧ k < a + n ∧ e = .pbufUnwritten k ∧ pbufGet m k = none := by
  rw [memRead, if_pos ((Config.fitsPbuf_iff _).2 fits)] at h
  exact pbufGetBytes_unwritten n h

theorem sendpayBad_eq_false_iff {len : Word} : sendpayBad len = false ↔ len.toNat ≤ Config.pbufCap := by
  rw [sendpayBad, Bool.not_eq_false', Config.fitsPbuf_iff]

/-- An accepted SENDPAY: the snapshot of `PBUF`, then the issue (R153). -/
def sendPayload (len tmo : Word) (s : State) : Except Fault State :=
  match memRead s.pbuf 0 len.toNat with
  | .error e => .error e
  | .ok payload => .ok (issueSendpay len tmo payload s)

theorem requestSendpay_eq (len tmo : Word) (s : State) :
    requestSendpay len tmo s = acceptRequest 2 (sendpayBad len) (sendPayload len tmo) s := rfl

/-- SENDPAY answers a safe state, or stops at an unwritten byte of its payload. -/
theorem Consistent.requestSendpay_safe {s : State} (h : Consistent s) (len tmo : Word) :
    SafeRun s (requestSendpay len tmo s) ∨
      ∃ k, requestSendpay len tmo s = .error (.pbufUnwritten k) ∧ k < len.toNat ∧ pbufGet s.pbuf k = none := by
  rw [requestSendpay_eq]
  rcases acceptRequest_cases (req := 2) (bad := sendpayBad len) (go := sendPayload len tmo) h.legal with
    ⟨st, cause, refused⟩ | ⟨free, good, issued⟩
  · rw [refused]
    rcases cause with rfl | rfl | ⟨rfl, -⟩ <;> exact .inl (h.reject_safe rfl)
  · rw [issued, sendPayload]
    cases read : memRead s.pbuf 0 len.toNat with
    | error e =>
      obtain ⟨k, -, high, rfl, missing⟩ :=
        memRead_unwritten ((Nat.zero_add _).trans_le (sendpayBad_eq_false_iff.1 good)) read
      exact .inr ⟨k, rfl, (Nat.zero_add len.toNat) ▸ high, missing⟩
    | ok payload =>
      exact .inl (h.issue_safe free rfl PendKind.noConfusion rfl (orDefault_ne_zero (by decide)) h.edlLegal
        (fun recv => PendKind.noConfusion recv))

/-- DATA_OUT of a payload that fits: the SENDPAY reads back what has just been written. -/
theorem Consistent.dataOut_safe {s : State} (h : Consistent s) {payload : List Byte}
    (fits : Config.fitsPbuf payload.length = true) : SafeRun s ((Action.dataOut payload).run s) := by
  have small := (Config.fitsPbuf_iff _).1 fits
  have cap := Config.pbufCap_bounds.2
  have len : (BitVec.ofNat 32 payload.length).toNat = payload.length := by
    rw [BitVec.toNat_ofNat, Nat.mod_eq_of_lt (by omega)]
  have write : memWrite s.pbuf 0 payload = .ok (pbufSetBytes s.pbuf 0 payload) :=
    (memWrite_ok _ _ _ _).2 ⟨by omega, rfl⟩
  have written : hostWrite 0 payload s = .ok { s with pbuf := pbufSetBytes s.pbuf 0 payload } := by
    rw [hostWrite, write]
  have next := h.withPbuf write
  rw [Action.run, written, andThen_ok_left]
  refine (next.requestSendpay_safe _ 0).resolve_right ?_
  rintro ⟨k, -, low, missing⟩
  rw [len] at low
  have present : pbufGet (pbufSetBytes s.pbuf 0 payload) k = payload[k]? := by
    rw [pbufGet_setBytes, if_pos (by omega), Nat.sub_zero]
  rw [present, List.getElem?_eq_getElem low] at missing
  cases missing

/-! ## The negotiator's arcs -/

/-- Opening the candidate `NIDX` names, nothing outstanding (44_baud_negotiator.md R232). -/
theorem openAttempt_safe {s : State} (buf : BuffersOk s) (rest : AtRest s) (nidx : s.nidx.toNat < 5)
    (txq : s.txq = 0) : SafeRun s (openAttempt s) := by
  obtain ⟨-, edlLegal, pbufForm, pbufFits, txqSmall, named⟩ := buf
  obtain ⟨b, rate⟩ := baudList_of_lt nidx
  rw [openAttempt, candidate_ok.2 rate]
  refine .emits (Quiescent.consistent (.opening rfl rest rfl nidx txq) ?_) rfl [.openTp b] rfl rfl
  exact ⟨Nat.zero_le _, edlLegal, pbufForm, pbufFits, txqSmall, named⟩

/-- The next candidate, or the end of the list (R237). -/
theorem nextCandidate_safe {s : State} (buf : BuffersOk s) (rest : AtRest s) (nidx : s.nidx.toNat < 5)
    (txq : s.txq = 0) (wait : s.tp.wait ≠ .reserved) : SafeRun s (nextCandidate s) := by
  unfold nextCandidate
  split
  · exact .result (Quiescent.consistent (.ended (.inr (.inl rfl)) rest wait) buf) rfl
      (req := reqNegotiate) (r := { status := .baudExhausted }) rfl rfl
  · next more =>
    refine openAttempt_safe (s := { s with nidx := s.nidx + 1 }) buf rest ?_ txq
    change (s.nidx + 1).toNat < 5
    simp only [Config.nAttempt] at more
    bv_omega

theorem Consistent.requestNegotiate_safe {s : State} (h : Consistent s) (target : Word) :
    SafeRun s (requestNegotiate target s) := by
  simp only [requestNegotiate, noteCs_legal h.legal.cs, noteNs_legal h.legal.ns, noteTpWait_legal h.legal.wait]
  split
  · exact h.reject_safe rfl
  · next accepted =>
    simp only [corrBlocked, bnBusy, Bool.or_eq_true, decide_eq_true_eq, not_or, not_not, Bool.not_eq_true] at accepted
    obtain ⟨⟨⟨idle, txq⟩, noBn⟩, wait⟩ := accepted
    have rest : AtRest s := by
      refine ⟨idle, ?_⟩
      cases timer : s.tmrEn with
      | false => rfl
      | true =>
        rw [h.timerUse timer idle] at noBn
        cases noBn
    have first : (0 : BitVec 3).toNat < 5 := by decide
    simp only [startNegotiation]
    split
    · exact .emits (Quiescent.consistent (.closing (.inl rfl) rest rfl first) h.buffers) rfl [.closeTp] rfl rfl
    · exact openAttempt_safe (s := { s with target := target, nidx := 0, ident := { s.ident with valid := false } })
        h.buffers rest first txq

theorem all_allowed_ite {c : Prop} [Decidable c] {e : OutEvent} (allowed : eventAllowed e = true) :
    (if c then [e] else []).all eventAllowed = true := by
  split
  · exact (Bool.and_true _).trans allowed
  · rfl

/-- A session reset leaves an ended position; its reports are in the table under the kinds they end
(70_reset_and_hazards.md R291). -/
theorem Consistent.requestReset_safe {s : State} (h : Consistent s) : SafeRun s (.ok (requestReset s)) := by
  have next := exec_next_iff.1 (sessionResetEffect.2 s h.legal)
  rw [show (actionOf .sessionReset).run s = .ok (requestReset s) from rfl] at next
  obtain ⟨-, -, pbufForm, pbufFits, txqSmall, -⟩ := h.buffers
  rw [next]
  refine .emits (Quiescent.consistent (.ended (.inl rfl) ⟨rfl, rfl⟩ ?_) ?_) rfl _
    ((List.append_assoc _ _ _).trans ((List.append_assoc _ _ _).trans (List.append_assoc _ _ _))) ?_
  · dsimp only
    split
    · exact TpWait.noConfusion
    · exact h.legal.wait
  · exact ⟨Nat.zero_le _, .inl rfl, pbufForm, pbufFits, txqSmall, PendKind.noConfusion⟩
  · have aborted : statusAllowed (kindCode s.pend.kind) .aborted .command = true := by
      have named := h.legal.kind
      cases kind : s.pend.kind <;> simp_all [kindCode, statusAllowed]
    simp only [List.all_append, Bool.and_eq_true]
    exact ⟨all_allowed_ite aborted, all_allowed_ite rfl, all_allowed_ite rfl, rfl⟩

/-! ## Events -/

theorem Consistent.onTxDone_safe {s : State} (h : Consistent s) (ok : Bool) (count : Word) :
    SafeRun s (onTxDone ok count s) := by
  unfold onTxDone
  split
  · exact .silent h rfl rfl
  · next some_ =>
    have fewer := h.txqPred some_
    split
    · exact .silent fewer rfl rfl
    · split
      · exact .silent fewer rfl rfl
      · next busy =>
        have noted : noteKind (noteCs { s with txq := s.txq - 1 }) = { s with txq := s.txq - 1 } := by
          rw [noteCs_legal fewer.legal.cs, noteKind_legal fewer.legal.kind]
        simp only [noted]
        split
        · exact fewer.complete_safe busy (.inr (.inr (.inr (.inl rfl)))) (fun _ ok => Status.noConfusion ok)
        · exact .silent fewer rfl rfl

/-- A transport answer comes only where the negotiator waits for it, or to nobody (44_baud_negotiator.md R249). -/
theorem Consistent.wait_open_cases {s : State} (h : Consistent s) (wait : s.tp.wait = .open_) :
    AtRest s ∧ ((s.ns = .untried ∨ s.ns = .exhausted ∨ s.ns = .failed) ∨
      (s.ns = .opening ∧ s.nidx.toNat < 5 ∧ s.txq = 0) ∨ s.ns = .reopening) := by
  have noLink (link : LinkUp s) : False := TpWait.noConfusion (wait.symm.trans link.2)
  by_cases idle : s.cs = .idle
  · cases h.quiescent idle with
    | ended ns rest _ => exact ⟨rest, .inl ns⟩
    | locked _ _ link => exact (noLink link).elim
    | closing _ _ other _ => exact TpWait.noConfusion (wait.symm.trans other)
    | opening ns rest _ nidx txq => exact ⟨rest, .inr (.inl ⟨ns, nidx, txq⟩)⟩
    | settling _ _ _ link => exact (noLink link).elim
    | closingChg _ _ other => exact TpWait.noConfusion (wait.symm.trans other)
    | reopening ns rest _ => exact ⟨rest, .inr (.inr ns)⟩
  · cases (h.outstanding idle).2 with
    | host _ _ link | probe _ _ link _ _ | change _ _ link => exact (noLink link).elim

theorem Consistent.wait_close_cases {s : State} (h : Consistent s) (wait : s.tp.wait = .close) :
    AtRest s ∧ ((s.ns = .untried ∨ s.ns = .exhausted ∨ s.ns = .failed) ∨
      ((s.ns = .preclose ∨ s.ns = .closingFail) ∧ s.nidx.toNat < 5) ∨ s.ns = .closingChg) := by
  have noLink (link : LinkUp s) : False := TpWait.noConfusion (wait.symm.trans link.2)
  by_cases idle : s.cs = .idle
  · cases h.quiescent idle with
    | ended ns rest _ => exact ⟨rest, .inl ns⟩
    | locked _ _ link => exact (noLink link).elim
    | closing ns rest _ nidx => exact ⟨rest, .inr (.inl ⟨ns, nidx⟩)⟩
    | opening _ _ other _ _ => exact TpWait.noConfusion (wait.symm.trans other)
    | settling _ _ _ link => exact (noLink link).elim
    | closingChg ns rest _ => exact ⟨rest, .inr (.inr ns)⟩
    | reopening _ _ other => exact TpWait.noConfusion (wait.symm.trans other)
  · cases (h.outstanding idle).2 with
    | host _ _ link | probe _ _ link _ _ | change _ _ link => exact (noLink link).elim

/-- The probe issued on an opened transport (R233). -/
theorem startProbe_safe {s : State} (buf : BuffersOk s) (link : LinkUp s) (nidx : s.nidx.toNat < 5) (txq : s.txq = 0) :
    SafeRun s (.ok (startProbe s)) := by
  obtain ⟨rbFits, -, pbufForm, pbufFits, -, -⟩ := buf
  have edl := edlOf_identLen
  have ident := Config.identLen_bounds.2
  have rbufCap := Config.rbufCap_bounds.1
  have pbufCap := Config.pbufCap_bounds.1
  have one : (s.txq + 1).toNat = 1 := by rw [txq]; rfl
  have live : Config.tAttempt ≠ 0 := by decide
  have len : RecvLen (startProbe s) := ⟨edl, ident.trans pbufCap⟩
  refine .emits (Outstanding.consistent
    (.probe rfl ⟨rfl, rfl, rfl, .inl rfl, len⟩ link nidx one.le) ⟨rfl, live⟩ ?_) rfl
    [.rxFlush, .txFrame (encodeCommand (opcodeOf .openDev) Config.openParam)] rfl rfl
  refine ⟨rbFits, .inr ?_, pbufForm, pbufFits, one.trans_le (by decide), PendKind.noConfusion⟩
  change Config.dOvh ≤ (edlOf Config.identLen).toNat ∧ (edlOf Config.identLen).toNat ≤ Config.rbufCap
  rw [edl, Config.dOvh]
  omega

theorem Consistent.onOpenDone_safe {s : State} (h : Consistent s) (ok : Bool) : SafeRun s (onOpenDone ok s) := by
  by_cases wait : s.tp.wait = .open_
  · obtain ⟨rest, position⟩ := h.wait_open_cases wait
    rw [onOpenDone_of_wait wait h.legal.ns]
    rcases position with ended | ⟨ns, nidx, txq⟩ | ns
    · rw [afterOpen_other (s := openAnswered ok s) (by rcases ended with ns | ns | ns <;> simp [openAnswered, ns])
        (by rcases ended with ns | ns | ns <;> simp [openAnswered, ns])]
      exact .silent (Quiescent.consistent (.ended ended rest TpWait.noConfusion) h.buffers) rfl rfl
    · rw [afterOpen_opening (s := openAnswered ok s) ns]
      cases ok with
      | true =>
        exact startProbe_safe (s := openAnswered true s) h.buffers
          ⟨rfl, rfl⟩ nidx txq
      | false =>
        exact nextCandidate_safe (s := openAnswered false s) h.buffers rest
          nidx txq TpWait.noConfusion
    · rw [afterOpen_reopening (s := openAnswered ok s) ns]
      cases ok with
      | true =>
        exact .result (Quiescent.consistent (.locked rfl rest ⟨rfl, rfl⟩) h.buffers) rfl (req := reqNegotiate)
          (r := { status := .ok, value := s.target }) rfl rfl
      | false =>
        exact .result (Quiescent.consistent (.ended (.inr (.inr rfl)) rest TpWait.noConfusion) h.buffers) rfl
          (req := reqNegotiate) (r := { status := .transportError }) rfl rfl
  · rw [onOpenDone, if_pos wait, noteTpWait_legal h.legal.wait]
    exact .silent h rfl rfl

theorem Consistent.onCloseDone_safe {s : State} (h : Consistent s) : SafeRun s (onCloseDone s) := by
  by_cases wait : s.tp.wait = .close
  · obtain ⟨rest, position⟩ := h.wait_close_cases wait
    obtain ⟨rbFits, edlLegal, pbufForm, pbufFits, -, named⟩ := h.buffers
    have buf : BuffersOk (closeAnswered s) :=
      ⟨rbFits, edlLegal, pbufForm, pbufFits, Nat.zero_le 2, named⟩
    rw [onCloseDone_of_wait wait h.legal.ns]
    rcases position with ended | ⟨ns | ns, nidx⟩ | ns
    · rw [afterClose_other (s := closeAnswered s) (by rcases ended with ns | ns | ns <;> simp [closeAnswered, ns])
        (by rcases ended with ns | ns | ns <;> simp [closeAnswered, ns])
        (by rcases ended with ns | ns | ns <;> simp [closeAnswered, ns])]
      exact .silent (Quiescent.consistent (.ended ended rest TpWait.noConfusion) buf) rfl rfl
    · rw [afterClose_preclose (s := closeAnswered s) ns]
      exact openAttempt_safe buf rest nidx rfl
    · rw [afterClose_closingFail (s := closeAnswered s) ns]
      exact nextCandidate_safe buf rest nidx rfl TpWait.noConfusion
    · rw [afterClose_closingChg (s := closeAnswered s) ns]
      refine .emits (Quiescent.consistent (.reopening rfl rest rfl) ?_) rfl [.openTp s.target] rfl rfl
      exact ⟨Nat.zero_le _, edlLegal, pbufForm, pbufFits, Nat.zero_le 2, named⟩
  · rw [onCloseDone, if_pos wait, noteTpWait_legal h.legal.wait]
    exact .silent h rfl rfl

theorem Consistent.onTpError_safe {s : State} (h : Consistent s) : SafeRun s (onTpError s) := by
  by_cases probing : s.ns = .probing
  · rw [onTpError_of_probing probing]
    exact h.complete_safe (h.bnWaits (.inl probing)).1 (.inr (.inr (.inr (.inl rfl))))
      (fun _ ok => Status.noConfusion ok)
  · rw [onTpError_of_not_probing probing h.legal.ns]
    exact .emits { h with legal := { h.legal with } } rfl [.terrNotify] rfl rfl

/-- The timer expires on an operation, or ends the settle delay (42_correlator.md R163). -/
theorem Consistent.onTick_safe {s : State} (h : Consistent s) : SafeRun s (onTick s) := by
  unfold onTick
  split
  · exact .silent h rfl rfl
  · next on =>
    split
    · next live => exact .silent (h.withTmr live) rfl rfl
    · unfold onExpiry
      split
      · next busy =>
        rw [noteCs_legal (s := { s with tmr := s.tmr - 1, tmrEn := false }) h.legal.cs]
        exact ((h.outstanding busy).2.withTimer (s.tmr - 1) false).complete_safe h.buffers
          (.inr (.inr (.inr (.inr ⟨rfl, rfl⟩)))) (fun _ ok => Status.noConfusion ok)
      · next idle =>
        have settling := h.timerUse (by simpa using on) (not_not.1 idle)
        rw [if_pos (show ({ s with tmr := s.tmr - 1, tmrEn := false } : State).ns = .settling from settling)]
        exact .emits (Quiescent.consistent (.closingChg rfl ⟨not_not.1 idle, rfl⟩ rfl) h.buffers) rfl [.closeTp] rfl rfl

/-! ## Instructions and steps -/

/-- Every operation but SENDPAY answers a safe state; DATA_OUT, when its payload fits. -/
theorem Consistent.run_safe {s : State} (h : Consistent s) (a : Action)
    (notSendpay : ∀ len tmo, a ≠ .sendpay len tmo)
    (fits : ∀ payload, a = .dataOut payload → Config.fitsPbuf payload.length = true) : SafeRun s (a.run s) := by
  cases a with
  | send op param tmo => exact h.requestSend_safe op param tmo
  | recv op param len tmo => exact h.requestRecv_safe op param len tmo
  | sendpay len tmo => exact absurd rfl (notSendpay len tmo)
  | dataOut payload => exact h.dataOut_safe (fits payload rfl)
  | negotiate target => exact h.requestNegotiate_safe target
  | sessionReset => exact h.requestReset_safe
  | refuse k => match k with | 0 | 1 | 2 => exact h.reject_safe rfl
  | chunk bytes => exact h.feed_safe bytes
  | txDone ok count => exact h.onTxDone_safe ok count
  | openDone ok => exact h.onOpenDone_safe ok
  | closeDone => exact h.onCloseDone_safe
  | tpError => exact h.onTpError_safe
  | tick => exact h.onTick_safe
  | nothing => exact .silent h rfl rfl

theorem actionOf_eq_sendpay {i : Instr} {len tmo : Word} (h : actionOf i = .sendpay len tmo) :
    i = .sendpay len tmo := by
  cases i with
  | sendpay len' tmo' =>
    cases h
    rfl
  | _ => cases h

theorem actionOf_eq_dataOut {i : Instr} {payload : List Byte} (h : actionOf i = .dataOut payload) :
    i = .dataOut payload := by
  cases i with
  | dataOut payload' =>
    cases h
    rfl
  | _ => cases h

/-- In a consistent state an instruction, a DATA_OUT whose payload fits, answers a safe state, or is a SENDPAY that
meets
an unwritten byte. -/
theorem Consistent.exec_safe {s : State} (h : Consistent s) {i : Instr}
    (fits : ∀ payload, i = .dataOut payload → Config.fitsPbuf payload.length = true) :
    SafeRun s ((actionOf i).run s) ∨ ∃ len tmo k, i = .sendpay len tmo ∧
      (actionOf i).run s = .error (.pbufUnwritten k) ∧ k < len.toNat ∧ pbufGet s.pbuf k = none := by
  by_cases isSendpay : ∃ len tmo, i = .sendpay len tmo
  · obtain ⟨len, tmo, rfl⟩ := isSendpay
    refine (h.requestSendpay_safe len tmo).imp_right ?_
    rintro ⟨k, fault, low, missing⟩
    exact ⟨len, tmo, k, rfl, fault, low, missing⟩
  · refine .inl (h.run_safe (actionOf i) (fun len tmo row => isSendpay ⟨len, tmo, actionOf_eq_sendpay row⟩) ?_)
    exact fun payload row => fits payload (actionOf_eq_dataOut row)

/-- A DATA_OUT that ends in a next state has a payload that fits: its write of `PBUF` succeeded. -/
theorem fits_of_dataOut_next {s t : State} {payload : List Byte} (run : exec (.dataOut payload) s = .next t) :
    Config.fitsPbuf payload.length = true := by
  obtain ⟨u, written, -⟩ := andThen_ok.1 (exec_next_iff.1 run)
  unfold hostWrite at written
  split at written
  · next write => exact (Config.fitsPbuf_iff _).2 ((Nat.zero_add _).symm.trans_le ((memWrite_ok _ _ _ _).1 write).1)
  · cases written

/-- An instruction that ends in a next state ends in a safe one. -/
theorem Consistent.exec_next_safe {s t : State} (h : Consistent s) {i : Instr} (run : exec i s = .next t) :
    Safe s t := by
  have runs := exec_next_iff.1 run
  have fits : ∀ payload, i = .dataOut payload → Config.fitsPbuf payload.length = true := by
    rintro payload rfl
    exact fits_of_dataOut_next run
  rcases h.exec_safe fits with ⟨u, answer, safe⟩ | ⟨_, _, _, -, fault, -⟩
  · obtain rfl : u = t := Except.ok.inj (answer.symm.trans runs)
    exact safe
  · rw [fault] at runs
    cases runs

/-- An arrival that is taken leaves a consistent state and emits only results of the table. -/
theorem Consistent.runItem_safe {s t : State} (h : Consistent s) {x : PortItem} (run : runItem x s = .next t) :
    Consistent t ∧ EmitsAllowed s t := by
  have record (p : Port) (bytes : List Byte) (run : runRecord p bytes s = .next t) :
      Consistent t ∧ EmitsAllowed s t := by
    unfold runRecord at run
    split at run
    · next i _ =>
      obtain ⟨next, -, emits⟩ := h.exec_next_safe run
      exact ⟨next, emits⟩
    · cases run
  cases x with
  | host bytes => exact record .host bytes run
  | link bytes => exact record .link bytes run
  | pbufWrite a bytes =>
    have written := (outcomeOf_next _ _).1 run
    unfold hostWrite at written
    split at written
    · next write =>
      cases written
      exact ⟨h.withPbuf write, .refl s⟩
    · cases written
  | powerOn =>
    cases run
    exact ⟨{ invariantAtReset with legal := { invariantAtReset.legal with } }, .refl s⟩

/-- A step that ends in a next state does so from a consistent state to a consistent one. -/
theorem Consistent.step_safe {s t : State} (h : Consistent s) (run : step s = .next t) :
    Consistent t ∧ EmitsAllowed s t := by
  unfold step at run
  split at run
  · cases run
    exact ⟨h, .refl s⟩
  · next x rest _ => exact (h.withPort rest).runItem_safe run

/-- Settles O59: `Consistent.step_safe`. -/
theorem invariantKept : Obligations.InvariantKept :=
  fun _ _ h run => (h.step_safe run).1

/-- Settles O53: `Consistent.step_safe`. -/
theorem resultsFollowTable : Obligations.ResultsFollowTable :=
  fun _ _ h run => (h.step_safe run).2

/-- Settles O60: faults by `Consistent.exec_safe`, since a well-formed DATA_OUT fits; STATE_BAD by
`Consistent.exec_next_safe`. -/
theorem invariantStatesAreSafe : Obligations.InvariantStatesAreSafe := by
  constructor
  · intro i s e h wf run
    have runs := exec_fault_iff.1 run
    have fits : ∀ payload, i = .dataOut payload → Config.fitsPbuf payload.length = true := by
      rintro payload rfl
      exact wf
    rcases h.exec_safe fits with ⟨t, answer, -⟩ | ⟨len, tmo, k, rfl, fault, low, missing⟩
    · rw [answer] at runs
      cases runs
    · obtain rfl : Fault.pbufUnwritten k = e := Except.error.inj (fault.symm.trans runs)
      exact ⟨len, tmo, k, rfl, rfl, low, missing⟩
  · intro i s t h run
    obtain ⟨-, same, -⟩ := h.exec_next_safe run
    exact same

end Sys2Proof.Machine
end

section
/-! PROOFS. What every instruction keeps in every state: the sticky fault bits, the input port, and an output that only
grows, each frame right after a receive flush (10_state.md section 5, 20_memory.md R71); and where a transport is opened
(44_baud_negotiator.md R232, R243). -/

namespace Sys2Proof.Machine

/-! ## Growing output -/

/-- `t` comes after `s` with no fault bit cleared, no arrival taken, no transport opened and, unless `w` says that it
may
be written, `PBUF` unchanged. -/
structure Extends (w : Bool) (s t : State) : Prop where
  pbuf : w = false → t.pbuf = s.pbuf
  rbOvf : s.rbOvf = true → t.rbOvf = true
  stateBad : s.stateBad = true → t.stateBad = true
  port : t.port = s.port
  out : ∃ new, t.out = s.out ++ new ∧ framesFlushed .terrNotify new = true ∧ ∀ b, .openTp b ∉ new

section
variable {w : Bool}

/-- Whether a frame may come first depends on the event before; after a flush it may, so nothing is lost by assuming
another event there. -/
theorem framesFlushed_after {e : OutEvent} {l : List OutEvent} (flushed : framesFlushed .terrNotify l = true) :
    framesFlushed e l = true := by
  cases l with
  | nil => rfl
  | cons x l =>
    cases x with
    | txFrame bytes => simp [framesFlushed] at flushed
    | _ => exact flushed

theorem framesFlushed_append {a b : List OutEvent} {e : OutEvent} (first : framesFlushed e a = true)
    (second : framesFlushed .terrNotify b = true) : framesFlushed e (a ++ b) = true := by
  induction a generalizing e with
  | nil => exact framesFlushed_after second
  | cons x a ih =>
    simp only [framesFlushed, Bool.and_eq_true] at first
    simp only [List.cons_append, framesFlushed, Bool.and_eq_true]
    exact ⟨first.1, ih first.2⟩

/-- Nothing emitted, no fault bit cleared. -/
theorem Extends.silent {s t : State} (rbOvf : s.rbOvf = true → t.rbOvf = true)
    (stateBad : s.stateBad = true → t.stateBad = true) (port : t.port = s.port) (out : t.out = s.out)
    (pbuf : t.pbuf = s.pbuf) : Extends w s t :=
  ⟨fun _ => pbuf, rbOvf, stateBad, port, [], by rw [out, List.append_nil], rfl, fun _ => List.not_mem_nil⟩

/-- `PBUF` written, nothing else. -/
theorem Extends.written (s : State) (m : Memory) : Extends true s { s with pbuf := m } :=
  ⟨Bool.noConfusion, id, id, rfl, [], (List.append_nil _).symm, rfl, fun _ => List.not_mem_nil⟩

theorem Extends.refl (s : State) : Extends w s s := .silent id id rfl rfl rfl

theorem Extends.trans {s t u : State} (st : Extends w s t) (tu : Extends w t u) : Extends w s u := by
  obtain ⟨a, outA, flushedA, closedA⟩ := st.out
  obtain ⟨b, outB, flushedB, closedB⟩ := tu.out
  refine ⟨fun keeps => (tu.pbuf keeps).trans (st.pbuf keeps), tu.rbOvf ∘ st.rbOvf,
    tu.stateBad ∘ st.stateBad, tu.port.trans st.port, a ++ b, ?_,
    framesFlushed_append flushedA flushedB, ?_⟩
  · rw [outB, outA, List.append_assoc]
  · exact fun baud opened => (List.mem_append.1 opened).elim (closedA baud) (closedB baud)

theorem Extends.note (reserved : Bool) (s : State) : Extends w s (note reserved s) :=
  .silent id (fun bad => by simp [bad]) rfl rfl rfl

/-- One event emitted that opens nothing and is no frame. -/
theorem Extends.emits {s t : State} (e : OutEvent) (rbOvf : t.rbOvf = s.rbOvf) (stateBad : t.stateBad = s.stateBad)
    (port : t.port = s.port) (out : t.out = s.out ++ [e]) (plain : framesFlushed .terrNotify [e] = true)
    (closed : ∀ b, e ≠ .openTp b) (pbuf : t.pbuf = s.pbuf) : Extends w s t :=
  ⟨fun _ => pbuf, rbOvf.trans, stateBad.trans, port, [e], out, plain,
    fun b opened => closed b (List.mem_singleton.1 opened).symm⟩

theorem Extends.emitResult (req : BitVec 3) (r : OpResult) (s : State) : Extends w s (emitResult req r s) :=
  .emits (.result (resultOf req r)) rfl rfl rfl rfl rfl (fun _ => OutEvent.noConfusion) rfl

theorem Extends.closeTransport (n : Ns) (s : State) : Extends w s (closeTransport n s) :=
  .emits .closeTp rfl rfl rfl rfl rfl (fun _ => OutEvent.noConfusion) rfl

/-- A frame leaves after a flush (42_correlator.md R154). -/
theorem Extends.issued {s t : State} (frame : List Byte) (rbOvf : t.rbOvf = s.rbOvf)
    (stateBad : t.stateBad = s.stateBad) (port : t.port = s.port) (out : t.out = s.out ++ [.rxFlush, .txFrame frame])
    (pbuf : t.pbuf = s.pbuf) : Extends w s t :=
  ⟨fun _ => pbuf, rbOvf.trans, stateBad.trans, port, [.rxFlush, .txFrame frame], out, rfl,
    fun _ opened => by simp at opened⟩

/-! ## Completion and the receive side -/

theorem Extends.startChange (s : State) : Extends w s (startChange s) :=
  .issued (encodeCommand (opcodeOf .changeBaudrate) s.target) rfl rfl rfl rfl rfl

theorem Extends.startProbe (s : State) : Extends w s (startProbe s) :=
  .issued (encodeCommand (opcodeOf .openDev) Config.openParam) rfl rfl rfl rfl rfl

theorem Extends.lockAt (b : Word) (s : State) : Extends w s (lockAt b s) :=
  have locked : Extends w s { s with curBaud := b, ns := .locked } := .silent id id rfl rfl rfl
  locked.trans (.emitResult _ _ _)

theorem Extends.negotiationFailed (r : OpResult) (s : State) : Extends w s (negotiationFailed r s) :=
  have failed : Extends w s { s with ns := .failed } := .silent id id rfl rfl rfl
  failed.trans (.emitResult _ _ _)

theorem bnOpDone_extends {r : OpResult} {s t : State} (h : bnOpDone r s = .ok t) : Extends w s t := by
  rcases bnOpDone_ok h with ⟨-, -, bytes, b, -, -, ⟨-, rfl⟩ | ⟨-, rfl⟩⟩ | ⟨-, -, rfl⟩ | ⟨-, -, rfl⟩ | ⟨-, -, rfl⟩ |
    ⟨-, -, rfl⟩
  · have identified : Extends w s { s with ident := identityOf bytes r.dcsum, lockBaud := b } :=
      .silent id id rfl rfl rfl
    exact identified.trans (.lockAt _ _)
  · have identified : Extends w s { s with ident := identityOf bytes r.dcsum, lockBaud := b } :=
      .silent id id rfl rfl rfl
    exact identified.trans (.startChange _)
  · exact .closeTransport _ _
  · exact .silent id id rfl rfl rfl
  · exact .negotiationFailed _ _
  · exact .refl _

theorem complete_extends {r : OpResult} {s t : State} (h : complete r s = .ok t) : Extends w s t := by
  have ended : Extends w s { s with cs := .idle, tmrEn := false } := .silent id id rfl rfl rfl
  rcases complete_ok h with ⟨-, rfl⟩ | ⟨-, done⟩
  · exact (ended.trans (.note _ _)).trans (.emitResult _ _ _)
  · exact (ended.trans (.note _ _)).trans (bnOpDone_extends done)

theorem deliverResponse_extends {d : DecodedResponse} {s t : State} (h : deliverResponse d s = .ok t) :
    Extends w s t := by
  rcases deliverResponse_ok h with ⟨-, rfl⟩ | ⟨-, -, ends⟩ | ⟨-, -, -, rfl⟩ | ⟨-, -, -, ends⟩
  · exact (Extends.note _ s).trans (.silent id id rfl rfl rfl)
  · exact complete_extends ends
  · exact .silent id id rfl rfl rfl
  · exact (Extends.note _ s).trans (complete_extends ends)

theorem deliverData_extends {d : DecodedData} {s t : State} (h : deliverData d s = .ok t) : Extends true s t := by
  rcases deliverData_ok h with ⟨-, rfl⟩ | ⟨-, m, -, ends⟩
  · exact (Extends.note _ s).trans (.silent id id rfl rfl rfl)
  · exact (Extends.written s m).trans (complete_extends ends)

theorem applyPolicy_extends (p : NoisePolicy) (s : State) : Extends w s (applyPolicy p s) := by
  cases p with
  | retain =>
    rw [applyPolicy_retain]
    exact .refl s
  | resync =>
    rw [applyPolicy_resync]
    exact .silent id id rfl rfl rfl

theorem storeByte_extends (b : Byte) (s : State) : Extends w s (storeByte b s) := by
  unfold storeByte
  split
  · exact .silent (fun _ => rfl) id rfl rfl rfl
  · exact .silent id id rfl rfl rfl

theorem extractResp_extends {s t : State} (h : extractResp s = .ok t) : Extends w s t :=
  have taken : Extends w s { s with rb := s.rb.drop Config.crLen } := .silent id id rfl rfl rfl
  taken.trans (deliverResponse_extends h)

theorem extractData_extends {s t : State} (h : extractData s = .ok t) : Extends true s t :=
  have taken : Extends true s { s with rb := s.rb.drop s.edl.toNat } := .silent id id rfl rfl rfl
  taken.trans (deliverData_extends h)

theorem extractLoop_extends {p : NoisePolicy} {n : Nat} {s t : State} (h : extractLoop p n s = .ok t) :
    Extends true s t :=
  extractLoop_induct (Extends true s) p (fun _ before => before.trans (applyPolicy_extends _ _))
    (fun _ _ before _ extracted => before.trans (extractResp_extends extracted))
    (fun _ _ before _ extracted => before.trans (extractData_extends extracted)) n s t (.refl s) h

theorem feed_extends {bytes : List Byte} {s t : State} (h : feed bytes s = .ok t) : Extends true s t :=
  feed_induct (Extends true s) (fun b _ before => before.trans (storeByte_extends b _))
    (fun _ before => before.trans (applyPolicy_extends _ _))
    (fun _ _ before _ extracted => before.trans (extractResp_extends extracted))
    (fun _ _ before _ extracted => before.trans (extractData_extends extracted)) bytes s t (.refl s) h

/-! ## Requests and events -/

/-- The transport is opened as the last thing of a step, before which nothing is emitted. -/
def Opens (w : Bool) (s t : State) : Prop := ∃ u b n, Extends w s u ∧ u.out = s.out ∧ t = openTransport b n u

/-- What an instruction can do: grow the output with no open, or open the transport. -/
def Moves (w : Bool) (s t : State) : Prop := Extends w s t ∨ Opens w s t

/-- A silent change first. -/
theorem Moves.after {s u t : State} (quiet : Extends w s u) (out : u.out = s.out) (moves : Moves w u t) :
    Moves w s t := by
  rcases moves with grows | ⟨v, b, n, grows, same, rfl⟩
  · exact .inl (quiet.trans grows)
  · exact .inr ⟨v, b, n, quiet.trans grows, same.trans out, rfl⟩

theorem openAttempt_moves {s t : State} (h : openAttempt s = .ok t) : Moves w s t := by
  obtain ⟨b, -, rfl⟩ := openAttempt_ok h
  exact .inr ⟨s, b, .opening, .refl s, rfl, rfl⟩

theorem nextCandidate_moves {s t : State} (h : nextCandidate s = .ok t) : Moves w s t := by
  rcases nextCandidate_ok h with ⟨-, rfl⟩ | ⟨-, b, -, rfl⟩
  · have ended : Extends w s { s with nidx := s.nidx + 1, ns := .exhausted } := .silent id id rfl rfl rfl
    exact .inl (ended.trans (.emitResult _ _ _))
  · exact .inr ⟨{ s with nidx := s.nidx + 1 }, b, .opening, .silent id id rfl rfl rfl, rfl, rfl⟩

theorem acceptRequest_extends {req : BitVec 3} {bad : Bool} {go : State → Except Fault State} {s t : State}
    (issues : ∀ u v, go u = .ok v → Extends w u v) (h : acceptRequest req bad go s = .ok t) : Extends w s t := by
  have noted : Extends w s (noteNs (noteCs s)) := (Extends.note _ s).trans (.note _ _)
  rcases acceptRequest_ok h with ⟨-, rfl⟩ | ⟨-, -, rfl⟩ | ⟨-, -, -, rfl⟩ | ⟨-, -, -, accepted⟩
  · exact noted.trans (.emitResult _ _ _)
  · exact noted.trans (.emitResult _ _ _)
  · exact noted.trans (.emitResult _ _ _)
  · exact noted.trans (issues _ _ accepted)

theorem requestSend_extends {op : Byte} {param tmo : Word} {s t : State} (h : requestSend op param tmo s = .ok t) :
    Extends w s t := by
  refine acceptRequest_extends (fun u v issued => ?_) h
  cases issued
  exact .issued (encodeCommand op param) rfl rfl rfl rfl rfl

theorem requestRecv_extends {op : Byte} {param len tmo : Word} {s t : State}
    (h : requestRecv op param len tmo s = .ok t) : Extends w s t := by
  refine acceptRequest_extends (fun u v issued => ?_) h
  cases issued
  exact .issued (encodeCommand op param) rfl rfl rfl rfl rfl

theorem sendPayload_ok {len tmo : Word} {s t : State} (h : sendPayload len tmo s = .ok t) :
    ∃ payload, memRead s.pbuf 0 len.toNat = .ok payload ∧ t = issueSendpay len tmo payload s := by
  unfold sendPayload at h
  split at h
  · cases h
  · next payload read => exact ⟨payload, read, (Except.ok.inj h).symm⟩

theorem requestSendpay_extends {len tmo : Word} {s t : State} (h : requestSendpay len tmo s = .ok t) :
    Extends w s t := by
  rw [requestSendpay_eq] at h
  refine acceptRequest_extends (fun u v issued => ?_) h
  obtain ⟨payload, -, rfl⟩ := sendPayload_ok issued
  exact .issued (encodeData payload) rfl rfl rfl rfl rfl

/-- A host's write of `PBUF` changes nothing else. -/
theorem hostWrite_ok {a : Nat} {bytes : List Byte} {s t : State} (h : hostWrite a bytes s = .ok t) :
    a + bytes.length ≤ Config.pbufCap ∧ t = { s with pbuf := pbufSetBytes s.pbuf a bytes } := by
  unfold hostWrite at h
  split at h
  · next write =>
    obtain ⟨fits, rfl⟩ := (memWrite_ok _ _ _ _).1 write
    exact ⟨fits, (Except.ok.inj h).symm⟩
  · cases h

theorem requestNegotiate_moves {target : Word} {s t : State} (h : requestNegotiate target s = .ok t) : Moves w s t := by
  have noted : Extends w s (noteTpWait (noteNs (noteCs s))) :=
    ((Extends.note _ s).trans (.note _ _)).trans (.note _ _)
  simp only [requestNegotiate] at h
  split at h
  · cases h
    exact .inl (noted.trans (.emitResult _ _ _))
  · refine .after noted rfl ?_
    generalize noteTpWait (noteNs (noteCs s)) = u at h
    have started : Extends w u { u with target := target, nidx := 0, ident := { u.ident with valid := false } } :=
      .silent id id rfl rfl rfl
    simp only [startNegotiation] at h
    split at h
    · cases h
      exact .inl (started.trans (.closeTransport _ _))
    · exact .after started rfl (openAttempt_moves h)

theorem requestReset_extends (s : State) : Extends w s (requestReset s) := by
  have noted : Extends w s (noteTpWait (noteNs (noteCs s))) :=
    ((Extends.note _ s).trans (.note _ _)).trans (.note _ _)
  have operation (u : State) : Extends w u (abortOperation u) := by
    unfold abortOperation
    split
    · exact (Extends.note _ u).trans (.emitResult _ _ _)
    · exact .refl u
  have negotiation (u : State) : Extends w u (abortNegotiation u) := by
    unfold abortNegotiation
    split
    · exact .emitResult _ _ u
    · exact .refl u
  have transport (u : State) : Extends w u (resetTransport u) := by
    unfold resetTransport
    split
    · exact .closeTransport _ u
    · exact .refl u
  have assigned (u : State) : Extends w u (assignReset u) := .silent id id rfl rfl rfl
  exact ((((noted.trans (operation _)).trans (negotiation _)).trans (transport _)).trans (assigned _)).trans
    (.emitResult _ _ _)

theorem onTxDone_extends {ok : Bool} {count : Word} {s t : State} (h : onTxDone ok count s = .ok t) :
    Extends w s t := by
  have answered : Extends w s { s with txq := s.txq - 1 } := .silent id id rfl rfl rfl
  have noted : Extends w s (noteKind (noteCs { s with txq := s.txq - 1 })) :=
    (answered.trans (.note _ _)).trans (.note _ _)
  unfold onTxDone at h
  split at h
  · cases h
    exact .refl s
  · split at h
    · cases h
      exact answered
    · split at h
      · cases h
        exact answered
      · simp only at h
        split at h
        · exact noted.trans (complete_extends h)
        · cases h
          exact noted

theorem afterOpen_moves {ok : Bool} {s t : State} (h : afterOpen ok s = .ok t) : Moves w s t := by
  unfold afterOpen at h
  split at h
  · split at h
    · cases h
      exact .inl (.startProbe s)
    · exact nextCandidate_moves h
  · split at h
    · cases h
      exact .inl (.lockAt _ s)
    · cases h
      exact .inl (.negotiationFailed _ s)
  all_goals
    cases h
    exact .inl (.refl s)

theorem onOpenDone_moves {ok : Bool} {s t : State} (h : onOpenDone ok s = .ok t) : Moves w s t := by
  unfold onOpenDone at h
  split at h
  · cases h
    exact .inl (.note _ s)
  · have answered : Extends w s (openAnswered ok s) := .silent id id rfl rfl rfl
    exact .after (answered.trans (.note _ _)) rfl (afterOpen_moves h)

theorem afterClose_moves {s t : State} (h : afterClose s = .ok t) : Moves w s t := by
  unfold afterClose at h
  split at h
  · exact openAttempt_moves h
  · exact nextCandidate_moves h
  · cases h
    exact .inr ⟨s, s.target, .reopening, .refl s, rfl, rfl⟩
  all_goals
    cases h
    exact .inl (.refl s)

theorem onCloseDone_moves {s t : State} (h : onCloseDone s = .ok t) : Moves w s t := by
  unfold onCloseDone at h
  split at h
  · cases h
    exact .inl (.note _ s)
  · have answered : Extends w s (closeAnswered s) := .silent id id rfl rfl rfl
    exact .after (answered.trans (.note _ _)) rfl (afterClose_moves h)

theorem onTpError_extends {s t : State} (h : onTpError s = .ok t) : Extends w s t := by
  unfold onTpError at h
  split at h
  · exact complete_extends h
  · cases h
    have noted : Extends w s { noteNs s with terr := true } := (Extends.note _ s).trans (.silent id id rfl rfl rfl)
    exact noted.trans (.emits .terrNotify rfl rfl rfl rfl rfl (fun _ => OutEvent.noConfusion) rfl)

theorem onTick_extends {s t : State} (h : onTick s = .ok t) : Extends w s t := by
  unfold onTick at h
  split at h
  · cases h
    exact .refl s
  · split at h
    · cases h
      exact .silent id id rfl rfl rfl
    · have expired : Extends w s { s with tmr := s.tmr - 1, tmrEn := false } := .silent id id rfl rfl rfl
      refine expired.trans ?_
      unfold onExpiry at h
      split at h
      · exact (Extends.note _ _).trans (complete_extends h)
      · split at h
        · cases h
          exact .closeTransport _ _
        · cases h
          exact .note _ _

end

/-! ## Every instruction -/

/-- The operations that may write `PBUF`: received bytes, and the host's DATA_OUT. -/
def Action.writes : Action → Bool
  | .chunk _ | .dataOut _ => true
  | .send _ _ _ | .recv _ _ _ _ | .sendpay _ _ | .negotiate _ | .sessionReset | .refuse _ | .txDone _ _ | .openDone _
  | .closeDone | .tpError | .tick | .nothing => false

theorem Action.run_moves {a : Action} {s t : State} (h : a.run s = .ok t) : Moves a.writes s t := by
  cases a with
  | send op param tmo => exact .inl (requestSend_extends h)
  | recv op param len tmo => exact .inl (requestRecv_extends h)
  | sendpay len tmo => exact .inl (requestSendpay_extends h)
  | dataOut payload =>
    obtain ⟨u, write, request⟩ := andThen_ok.1 h
    obtain ⟨-, rfl⟩ := hostWrite_ok write
    exact .inl ((Extends.written s _).trans (requestSendpay_extends request))
  | negotiate target => exact requestNegotiate_moves h
  | sessionReset =>
    cases h
    exact .inl (requestReset_extends s)
  | refuse k =>
    cases h
    exact .inl (.emitResult _ _ s)
  | chunk bytes => exact .inl (feed_extends h)
  | txDone ok count => exact .inl (onTxDone_extends h)
  | openDone ok => exact onOpenDone_moves h
  | closeDone => exact onCloseDone_moves h
  | tpError => exact .inl (onTpError_extends h)
  | tick => exact .inl (onTick_extends h)
  | nothing =>
    cases h
    exact .inl (.refl s)

theorem exec_moves {i : Instr} {s t : State} (h : exec i s = .next t) : Moves (actionOf i).writes s t :=
  Action.run_moves (exec_next_iff.1 h)

/-- Settles O48: opening the transport touches neither the fault bits nor the port. -/
theorem faultBitsSticky : Obligations.FaultBitsSticky := by
  intro i s t h
  rcases exec_moves h with grows | ⟨u, b, n, grows, -, rfl⟩ <;>
    exact ⟨grows.rbOvf, grows.stateBad, grows.port⟩

/-- Settles O50: the events of `Extends` are flushed frames; an open is no frame. -/
theorem framesFollowFlush : Obligations.FramesFollowFlush := by
  intro i s t h
  rcases exec_moves h with grows | ⟨u, b, n, -, out, rfl⟩
  · obtain ⟨new, out, flushed, -⟩ := grows.out
    exact ⟨new, out, flushed⟩
  · exact ⟨[.openTp b], congrArg (· ++ [OutEvent.openTp b]) out, rfl⟩

/-- Settles O51: with an open among the new events the step is one of `Opens`, and the open its only event. -/
theorem openEmptiesBuffer : Obligations.OpenEmptiesBuffer := by
  intro i s t new b h out opened
  rcases exec_moves h with grows | ⟨u, baud, n, -, same, rfl⟩
  · obtain ⟨new', out', -, closed⟩ := grows.out
    obtain rfl : new = new' := List.append_cancel_left (out.symm.trans out')
    exact absurd opened (closed b)
  · have out' : (openTransport baud n u).out = s.out ++ [.openTp baud] := congrArg (· ++ [OutEvent.openTp baud]) same
    obtain rfl : new = [.openTp baud] := List.append_cancel_left (out.symm.trans out')
    obtain rfl : b = baud := OutEvent.openTp.inj (List.mem_singleton.1 opened)
    exact ⟨rfl, rfl, rfl⟩

end Sys2Proof.Machine
end

section
/-! PROOFS. Who may change `PBUF` (20_memory.md R61): a Data frame bound to a receive, and the host. -/

namespace Sys2Proof.Machine

/-! ## Receives -/

/-- A data phase is open, or a receive waits for its Response: what must hold for received bytes to reach `PBUF`. -/
def CanReceive (s : State) : Prop := s.cs = .waitData ∨ (s.cs = .waitResp ∧ s.pend.kind = .recv)

/-- The receive of `s` has been ended by its Data frame: `PBUF` is unchanged at and beyond `EDL - 6`, and a host has its
OK result. -/
def Received (s t : State) : Prop :=
  CanReceive s ∧ (∀ k, s.edl.toNat ≤ k + 6 → pbufGet t.pbuf k = pbufGet s.pbuf k) ∧ ¬ CanReceive t ∧
    (s.pend.owner = .host → t.cs = .idle ∧ t.last.valid = true ∧ t.last.req = kindCode s.pend.kind ∧
      t.last.status = .ok ∧ t.last.len = s.edl - 6 ∧ .result t.last ∈ t.out)

/-- `PBUF` is as it was, and a receive that can still be bound is the one of `s`. -/
def Unreceived (s t : State) : Prop :=
  t.pbuf = s.pbuf ∧ (CanReceive t → CanReceive s ∧ t.pend.kind = s.pend.kind ∧ t.pend.owner = s.pend.owner)

/-- What holds along a chunk that began in `s`. -/
def Binding (s t : State) : Prop := t.edl = s.edl ∧ (Unreceived s t ∨ Received s t)

theorem Binding.refl (s : State) : Binding s s := ⟨rfl, .inl ⟨rfl, fun can => ⟨can, rfl, rfl⟩⟩⟩

/-- A completed operation is no receive any more: either nothing is outstanding, or the change-baud command. -/
theorem complete_not_canReceive {r : OpResult} {s t : State} (h : complete r s = .ok t) : ¬ CanReceive t := by
  have idle {u : State} (cs : u.cs = .idle) : ¬ CanReceive u := by
    simp [CanReceive, cs]
  rcases complete_ok h with ⟨-, rfl⟩ | ⟨-, done⟩
  · exact idle rfl
  · rcases bnOpDone_ok done with ⟨-, -, bytes, b, -, -, ⟨-, rfl⟩ | ⟨-, rfl⟩⟩ | ⟨-, -, rfl⟩ | ⟨-, -, rfl⟩ |
      ⟨-, -, rfl⟩ | ⟨-, -, rfl⟩
    · exact idle rfl
    · exact fun can => can.elim Cs.noConfusion fun ⟨_, kind⟩ => PendKind.noConfusion kind
    · exact idle rfl
    · exact idle rfl
    · exact idle rfl
    · exact idle rfl

theorem complete_pbuf {r : OpResult} {s t : State} (h : complete r s = .ok t) : t.pbuf = s.pbuf :=
  (complete_extends h).pbuf rfl

/-- A host's operation ends idle with its result last. -/
theorem complete_host_result {r : OpResult} {s t : State} (h : complete r s = .ok t) (owner : s.pend.owner = .host) :
    t.cs = .idle ∧ t.last = resultOf (kindCode s.pend.kind) r ∧ .result t.last ∈ t.out := by
  rcases complete_ok h with ⟨-, rfl⟩ | ⟨bn, -⟩
  · exact ⟨rfl, rfl, List.mem_append_right _ (List.mem_singleton.2 rfl)⟩
  · rw [owner] at bn
    cases bn

/-- An operation that waits for its Response ends without a Data frame: nothing is received any more. -/
theorem Binding.complete {s u t : State} {r : OpResult} (before : Binding s u) (waits : u.cs = .waitResp)
    (h : complete r u = .ok t) : Binding s t := by
  obtain ⟨edl, progress⟩ := before
  obtain ⟨-, sameEdl, -, -⟩ := complete_stream h
  have closed := complete_not_canReceive h
  refine ⟨sameEdl.trans edl, ?_⟩
  rcases progress with ⟨pbuf, -⟩ | ⟨can, beyond, -, result⟩
  · exact .inl ⟨(complete_pbuf h).trans pbuf, fun can => absurd can closed⟩
  · refine .inr ⟨can, fun k high => by rw [complete_pbuf h, beyond k high], closed, fun owner => ?_⟩
    have idle := (result owner).1
    rw [waits] at idle
    cases idle

theorem Binding.deliverResponse {s u t : State} {d : DecodedResponse} (before : Binding s u)
    (h : deliverResponse d u = .ok t) : Binding s t := by
  rcases deliverResponse_ok h with ⟨-, rfl⟩ | ⟨waits, -, ends⟩ | ⟨waits, -, recv, rfl⟩ | ⟨waits, -, -, ends⟩
  · exact before
  · exact before.complete waits ends
  · obtain ⟨edl, progress⟩ := before
    have can : CanReceive u := .inr ⟨waits, recv⟩
    rcases progress with ⟨pbuf, origin⟩ | ⟨-, -, closed, -⟩
    · exact ⟨edl, .inl ⟨pbuf, fun _ => origin can⟩⟩
    · exact absurd can closed
  · have noted : Binding s (noteKind u) := before
    exact noted.complete waits ends

/-- A Data frame of the expected length in a data phase: the receive of `s` ends. -/
theorem Binding.deliverData {s u t : State} {d : DecodedData} (before : Binding s u)
    (len : d.payload.length + 6 = u.edl.toNat) (h : deliverData d u = .ok t) : Binding s t := by
  rcases deliverData_ok h with ⟨-, rfl⟩ | ⟨waits, m, write, ends⟩
  · exact before
  · obtain ⟨edl, progress⟩ := before
    obtain ⟨-, rfl⟩ := (memWrite_ok _ _ _ _).1 write
    obtain ⟨-, sameEdl, -, -⟩ := complete_stream ends
    have can : CanReceive u := .inl waits
    rcases progress with ⟨pbuf, origin⟩ | ⟨-, -, closed, -⟩
    · obtain ⟨canS, kind, owner⟩ := origin can
      refine ⟨sameEdl.trans edl, .inr ⟨canS, fun k high => ?_, complete_not_canReceive ends, fun host => ?_⟩⟩
      · have outside : ¬ (0 ≤ k ∧ k < 0 + d.payload.length) := by
          rw [edl] at len
          omega
        rw [complete_pbuf ends, pbufGet_setBytes, if_neg outside, pbuf]
      · obtain ⟨idle, last, listed⟩ := complete_host_result ends (owner.trans host)
        have six : s.edl - 6 = BitVec.ofNat 32 d.payload.length := by
          rw [← edl]
          bv_omega
        refine ⟨idle, ?_, ?_, ?_, ?_, listed⟩
        · rw [last]; rfl
        · rw [last, ← kind]; rfl
        · rw [last]; rfl
        · rw [last, six]; rfl
    · exact absurd can closed

theorem feed_binding {bytes : List Byte} {s t : State} (h : feed bytes s = .ok t) : Binding s t := by
  refine feed_induct (Binding s) (fun b u before => ?_) (fun u before => ?_) (fun u v before _ extracted => ?_)
    (fun u v before ready extracted => ?_) bytes s t (.refl s) h
  · unfold storeByte
    split <;> exact before
  · cases Config.noisePolicy with
    | retain =>
      rw [applyPolicy_retain]
      exact before
    | resync =>
      rw [applyPolicy_resync]
      exact before
  · have taken : Binding s { u with rb := u.rb.drop Config.crLen } := before
    exact taken.deliverResponse extracted
  · have taken : Binding s { u with rb := u.rb.drop u.edl.toNat } := before
    obtain ⟨long, held⟩ := dataReady_length ready
    refine taken.deliverData ?_ extracted
    simp only [decodeData, List.length_take, List.length_drop]
    omega

/-! ## Every instruction -/

/-- The instructions that may write `PBUF`: DATA_OUT, and those that are chunks. -/
theorem actionOf_writes {i : Instr} (writes : (actionOf i).writes = true) :
    (∃ p, i = .dataOut p) ∨
    (∃ bytes, actionOf i = .chunk bytes) ∧
      ((∃ bytes, i = .rxChunk bytes) ∨ (∃ d p c, i = .responseAck d p c) ∨ (∃ d p c, i = .responseNack d p c) ∨
        (∃ d p m c, i = .responseOtherMarker d p m c) ∨ (∃ d p c, i = .dataIn d p c)) := by
  cases i with
  | dataOut payload => exact .inl ⟨payload, rfl⟩
  | rxChunk bytes => exact .inr ⟨⟨_, rfl⟩, .inl ⟨bytes, rfl⟩⟩
  | responseAck d p c => exact .inr ⟨⟨_, rfl⟩, .inr (.inl ⟨d, p, c, rfl⟩)⟩
  | responseNack d p c => exact .inr ⟨⟨_, rfl⟩, .inr (.inr (.inl ⟨d, p, c, rfl⟩))⟩
  | responseOtherMarker d p m c => exact .inr ⟨⟨_, rfl⟩, .inr (.inr (.inr (.inl ⟨d, p, m, c, rfl⟩)))⟩
  | dataIn d p c => exact .inr ⟨⟨_, rfl⟩, .inr (.inr (.inr (.inr ⟨d, p, c, rfl⟩)))⟩
  | _ => cases writes

theorem Moves.pbuf {s t : State} (moves : Moves false s t) : t.pbuf = s.pbuf := by
  rcases moves with grows | ⟨u, b, n, grows, -, rfl⟩
  · exact grows.pbuf rfl
  · exact grows.pbuf rfl

/-- Settles O52: an instruction that may not write keeps `PBUF` (`Moves.pbuf`); a chunk that changed it has received a
Data frame (`feed_binding`). -/
theorem pbufWrittenOnlyByBoundData : Obligations.PbufWrittenOnlyByBoundData := by
  intro i s t run changed
  have moves := exec_moves run
  cases writes : (actionOf i).writes with
  | false =>
    rw [writes] at moves
    exact absurd moves.pbuf changed
  | true =>
    refine (actionOf_writes writes).imp_right ?_
    rintro ⟨⟨bytes, chunk⟩, rows⟩
    have fed : feed bytes s = .ok t := by
      have runs := exec_next_iff.1 run
      rwa [chunk] at runs
    obtain ⟨-, ⟨pbuf, -⟩ | ⟨can, beyond, closed, result⟩⟩ := feed_binding fed
    · exact absurd pbuf changed
    · refine ⟨rows, can, fun consistent => ?_, beyond, fun data => closed (.inl data), result⟩
      rcases can with data | ⟨resp, recv⟩
      · exact ⟨by simp [data], consistent.dataPhase data⟩
      · exact ⟨by simp [resp], recv⟩

end Sys2Proof.Machine
end

section
/-! PROOFS. The receive stream (41_frame_codec.md R122 to R128, 20_memory.md section 5): extraction leaves nothing to
extract, no byte is lost but by overflow, and frames that arrive whole are delivered. -/

namespace Sys2Proof.Machine

/-! ## Extraction settles -/

/-- Nothing left to extract, and no noise at the head under RESYNC. -/
def Settled (p : NoisePolicy) (s : State) : Prop :=
  respReady s.rb = false ∧ dataReady s.edl s.rb = false ∧
    (p = .resync → s.rb = [] ∨ headMayStart s.edl s.rb = true)

theorem applyPolicy_rb_length (p : NoisePolicy) (s : State) : (applyPolicy p s).rb.length ≤ s.rb.length := by
  cases p with
  | retain => rw [applyPolicy_retain]
  | resync =>
    rw [applyPolicy_resync]
    exact (List.drop_sublist _ _).length_le

/-- After the policy under RESYNC the head may start a frame. -/
theorem applyPolicy_head (s : State) :
    (applyPolicy .resync s).rb = [] ∨ headMayStart (applyPolicy .resync s).edl (applyPolicy .resync s).rb = true := by
  rw [applyPolicy_resync]
  exact drop_noiseLength s.edl s.rb

/-- Extracting a Response shortens `RB`. -/
theorem extractResp_shorter {s t : State} (ready : respReady s.rb = true) (h : extractResp s = .ok t) :
    t.rb.length < s.rb.length := by
  obtain ⟨rb, -, -, -⟩ := deliverResponse_stream h
  have long := respReady_length ready
  rw [rb]
  simp only [List.length_drop, Config.crLen]
  omega

/-- Extracting a Data frame shortens `RB`. -/
theorem extractData_shorter {s t : State} (ready : dataReady s.edl s.rb = true) (h : extractData s = .ok t) :
    t.rb.length < s.rb.length := by
  obtain ⟨rb, -, -, -⟩ := deliverData_stream h
  obtain ⟨long, held⟩ := dataReady_length ready
  rw [rb]
  simp only [List.length_drop]
  omega

/-- With fuel for every byte of `RB` the loop ends because nothing is left to extract. -/
theorem extractLoop_settled {p : NoisePolicy} (fuel : Nat) : ∀ {s t : State}, s.rb.length ≤ fuel →
    extractLoop p fuel s = .ok t → Settled p t := by
  induction fuel with
  | zero =>
    intro s t enough h
    cases h
    have empty : s.rb = [] := List.eq_nil_of_length_eq_zero (Nat.le_zero.1 enough)
    rw [Settled, empty]
    exact ⟨rfl, by simp [dataReady, startsWith], fun _ => .inl rfl⟩
  | succ fuel ih =>
    intro s t enough h
    have shorter := applyPolicy_rb_length p s
    rw [extractLoop] at h
    split at h
    · next ready =>
      obtain ⟨u, extracted, rest⟩ := andThen_ok.1 h
      have := extractResp_shorter ready extracted
      exact ih (by omega) rest
    · next notResp =>
      split at h
      · next ready =>
        obtain ⟨u, extracted, rest⟩ := andThen_ok.1 h
        have := extractData_shorter ready extracted
        exact ih (by omega) rest
      · next notData =>
        cases h
        refine ⟨by simpa using notResp, by simpa using notData, ?_⟩
        rintro rfl
        exact applyPolicy_head s

/-- Settles O14: the extractions after the last byte settle (`feed_snoc`, `extractLoop_settled`). -/
theorem extractionSettles : Obligations.ExtractionSettles := by
  intro b bytes s t run
  have fed := exec_next_iff.1 run
  rw [show b :: bytes = (b :: bytes).dropLast ++ [(b :: bytes).getLast (by simp)] from
    (List.dropLast_append_getLast (by simp)).symm] at fed
  obtain ⟨u, -, last⟩ := andThen_ok.1 ((feed_snoc _ _ _).symm.trans fed)
  exact extractLoop_settled _ le_rfl last

/-! ## Conservation of the stream -/

/-- A part of the stream that was extracted as a frame: a Response, or a Data frame of the expected length. -/
def IsFrame (edl : Word) (f : List Byte) : Prop :=
  (f.length = 12 ∧ startsWith 0x55 0xAA f = true) ∨
    (6 ≤ f.length ∧ f.length = edl.toNat ∧ startsWith 0x5A 0xA5 f = true)

/-- The bytes of the parts that are noise. -/
def noiseBytes (parts : List (Bool × List Byte)) : Nat := ((parts.filter (fun x => !x.1)).map (·.2.length)).sum

/-- What `s` held and then `bytes` are the parts taken and what `t` holds (20_memory.md section 5). -/
def Consumed (bytes : List Byte) (s t : State) : Prop :=
  t.edl = s.edl ∧ ∃ parts : List (Bool × List Byte),
    s.rb ++ bytes = (parts.map (·.2)).flatten ++ t.rb ∧
    (∀ f, (true, f) ∈ parts → IsFrame s.edl f) ∧
    t.noiseDrop = s.noiseDrop + BitVec.ofNat 32 (noiseBytes parts) ∧
    (Config.noisePolicy = .retain → ∀ x ∈ parts, x.1 = true)

theorem noiseBytes_append (a b : List (Bool × List Byte)) : noiseBytes (a ++ b) = noiseBytes a + noiseBytes b := by
  simp [noiseBytes]

/-- Bytes stored, nothing taken. -/
theorem Consumed.stored {bytes : List Byte} {s t : State} (edl : t.edl = s.edl) (rb : t.rb = s.rb ++ bytes)
    (noise : t.noiseDrop = s.noiseDrop) : Consumed bytes s t :=
  ⟨edl, [], by simp [rb], fun _ listed => absurd listed List.not_mem_nil, by simp [noise, noiseBytes],
    fun _ _ listed => absurd listed List.not_mem_nil⟩

/-- A frame taken from the head of `RB`. -/
theorem Consumed.frame {s t : State} {n : Nat} (frame : IsFrame s.edl (s.rb.take n)) (edl : t.edl = s.edl)
    (rb : t.rb = s.rb.drop n) (noise : t.noiseDrop = s.noiseDrop) : Consumed [] s t := by
  refine ⟨edl, [(true, s.rb.take n)], ?_, fun f listed => ?_, ?_, fun _ x listed => ?_⟩
  · simp [rb]
  · obtain ⟨-, rfl⟩ := Prod.mk.inj (List.mem_singleton.1 listed)
    exact frame
  · simp [noise, noiseBytes]
  · rw [List.mem_singleton.1 listed]

theorem Consumed.trans {a b : List Byte} {s t u : State} (st : Consumed a s t) (tu : Consumed b t u) :
    Consumed (a ++ b) s u := by
  obtain ⟨edl, parts, split, frames, noise, retain⟩ := st
  obtain ⟨edl', parts', split', frames', noise', retain'⟩ := tu
  refine ⟨edl'.trans edl, parts ++ parts', ?_, fun f listed => ?_, ?_, fun policy x listed => ?_⟩
  · rw [← List.append_assoc, split, List.append_assoc, split', List.map_append, List.flatten_append, List.append_assoc]
  · rcases List.mem_append.1 listed with old | new
    · exact frames f old
    · exact edl ▸ frames' f new
  · rw [noise', noise, noiseBytes_append, BitVec.ofNat_add, BitVec.add_assoc]
  · exact (List.mem_append.1 listed).elim (retain policy x) (retain' policy x)

/-- The noise policy takes noise under RESYNC, and nothing under RETAIN (41_frame_codec.md R126, R127). -/
theorem applyPolicy_consumed (s : State) : Consumed [] s (applyPolicy Config.noisePolicy s) := by
  cases policy : Config.noisePolicy with
  | retain =>
    rw [applyPolicy_retain]
    exact .stored rfl (List.append_nil _).symm rfl
  | resync =>
    rw [applyPolicy_resync]
    have shorter : noiseLength s.edl s.rb ≤ s.rb.length := by
      induction s.rb with
      | nil => exact le_rfl
      | cons a rb ih =>
        rw [noiseLength]
        split
        · exact Nat.zero_le _
        · exact Nat.succ_le_succ ih
    refine ⟨rfl, [(false, s.rb.take (noiseLength s.edl s.rb))], ?_, fun f listed => ?_, ?_, fun retain => ?_⟩
    · simp
    · exact absurd (Prod.mk.inj (List.mem_singleton.1 listed)).1 (by decide)
    · simp [noiseBytes, shorter]
    · rw [policy] at retain
      cases retain

theorem startsWith_take {a b : Byte} {n : Nat} (two : 2 ≤ n) (l : List Byte) :
    startsWith a b (l.take n) = startsWith a b l := by
  match n, l with
  | n + 2, [] | n + 2, [_] | n + 2, _ :: _ :: _ => rfl

theorem extractResp_consumed {s t : State} (ready : respReady s.rb = true) (h : extractResp s = .ok t) :
    Consumed [] s t := by
  obtain ⟨rb, edl, noise, -⟩ := deliverResponse_stream h
  have long := respReady_length ready
  refine .frame (.inl ⟨?_, ?_⟩) edl rb noise
  · simpa [Config.crLen] using long
  · rw [startsWith_take (by decide)]
    simp only [respReady, Bool.and_eq_true] at ready
    exact ready.2

theorem extractData_consumed {s t : State} (ready : dataReady s.edl s.rb = true) (h : extractData s = .ok t) :
    Consumed [] s t := by
  obtain ⟨rb, edl, noise, -⟩ := deliverData_stream h
  obtain ⟨long, held⟩ := dataReady_length ready
  refine .frame (.inr ⟨?_, ?_, ?_⟩) edl rb noise
  · rw [List.length_take]
    omega
  · rw [List.length_take]
    omega
  · rw [startsWith_take (by omega)]
    simp only [dataReady, Bool.and_eq_true] at ready
    exact ready.2

theorem extractLoop_consumed (fuel : Nat) : ∀ {s t : State}, extractLoop Config.noisePolicy fuel s = .ok t →
    Consumed [] s t := by
  induction fuel with
  | zero =>
    intro s t h
    cases h
    exact .stored rfl (List.append_nil _).symm rfl
  | succ fuel ih =>
    intro s t h
    rw [extractLoop] at h
    refine (applyPolicy_consumed s).trans (a := []) ?_
    split at h
    · next ready =>
      obtain ⟨u, extracted, rest⟩ := andThen_ok.1 h
      exact (extractResp_consumed ready extracted).trans (a := []) (ih rest)
    · split at h
      · next ready =>
        obtain ⟨u, extracted, rest⟩ := andThen_ok.1 h
        exact (extractData_consumed ready extracted).trans (a := []) (ih rest)
      · cases h
        exact .stored rfl (List.append_nil _).symm rfl

/-- A byte that does not overflow is stored. -/
theorem storeByte_consumed {b : Byte} {s : State} (room : (storeByte b s).rbOvf = false) :
    Consumed [b] s (storeByte b s) := by
  unfold storeByte at room ⊢
  split
  · next full =>
    rw [if_pos full] at room
    cases room
  · exact .stored rfl rfl rfl

theorem feed_consumed (bytes : List Byte) : ∀ {s t : State}, feed bytes s = .ok t → t.rbOvf = false →
    Consumed bytes s t := by
  induction bytes with
  | nil =>
    intro s t h _
    cases h
    exact .stored rfl (List.append_nil _).symm rfl
  | cons b bytes ih =>
    intro s t h noOvf
    obtain ⟨u, extracted, rest⟩ := andThen_ok.1 h
    have later : Extends true (storeByte b s) t :=
      (extractLoop_extends extracted).trans (feed_extends rest)
    have room : (storeByte b s).rbOvf = false := by
      cases ovf : (storeByte b s).rbOvf with
      | false => rfl
      | true => rw [later.rbOvf ovf] at noOvf; cases noOvf
    have stored := (storeByte_consumed room).trans (extractLoop_consumed _ extracted)
    exact stored.trans (ih rest noOvf)

/-- Settles O15: `feed_consumed`. -/
theorem streamConserved : Obligations.StreamConserved := by
  intro bytes s t run noOvf
  obtain ⟨-, parts, split, frames, noise, retain⟩ := feed_consumed bytes (exec_next_iff.1 run) noOvf
  exact ⟨parts, split, frames, noise, retain⟩

/-! ## Single bytes and whole frames -/

/-- Settles O16: the byte that finds `RB` full is not stored (41_frame_codec.md R128). -/
theorem fullBufferLosesByte : Obligations.FullBufferLosesByte := by
  intro b s full
  have lost : storeByte b s = { s with rbOvf := true } := by
    rw [storeByte, if_pos ((Config.rbufFull_iff _).2 full)]
  have one : feed [b] s = extractAll (storeByte b s) := by
    rw [feed]
    cases extractAll (storeByte b s) <;> rfl
  rw [exec_rxChunk, one, lost]

/-- Settles O17: a Response that is not complete is held (`feed_held`), frames that arrive whole are delivered
(`feed_responseFrame`, `feed_dataFrame`), and the frame rows are chunks by definition. -/
theorem partialResponseIsHeld : Obligations.PartialResponseIsHeld := by
  refine ⟨fun s => rfl, fun rest s empty short => ?held, fun dev mark csum p s empty => ?response,
    fun dev csum payload s empty edl cap => ?data, fun dev mark csum p payload s => ⟨rfl, rfl, rfl, rfl⟩⟩
  case held =>
    have cap := Config.rbufCap_bounds.1
    have held : feed ([0x55, 0xAA] ++ rest) s = .ok { s with rb := s.rb ++ ([0x55, 0xAA] ++ rest) } := by
      refine feed_held _ s (fun l start nonempty => ?_) ?_
      · have len := start.length_le
        simp only [List.length_append, List.length_cons, List.length_nil] at len
        rw [empty]
        exact response_start s.edl rest l start nonempty (by omega)
      · simp only [empty, List.length_append, List.length_cons, List.length_nil]
        omega
    rw [exec_rxChunk, held, empty]
    rfl
  case response => rw [exec_rxChunk, feed_responseFrame dev mark csum p s empty, decodeResponse_responseFrame]
  case data => rw [exec_rxChunk, feed_dataFrame dev csum payload s empty edl cap, decodeData_dataFrame]

end Sys2Proof.Machine
end

section
/-! PROOFS. The host's requests (42_correlator.md section 1, 43_commands.md, 44_baud_negotiator.md section 1): what each
issues on a free link, and what refuses it. -/

namespace Sys2Proof.Machine

/-! ## Issue on a free link -/

/-- With no write unanswered the new frame is the only one (42_correlator.md R154). -/
theorem issue_first {s : State} (txq : s.txq = 0) (p : Pending) (t : Word) (frame : List Byte) :
    issue p t frame s = { s with
      pend := p, cs := .waitResp, out := s.out ++ [.rxFlush, .txFrame frame], txq := 1, tmr := t, tmrEn := true } := by
  rw [issue, txq]
  rfl

theorem LinkFree.accept {s : State} (free : LinkFree s) {req : BitVec 3} {bad : Bool}
    {go : State → Except Fault State} (good : bad = false) : acceptRequest req bad go s = go s :=
  acceptRequest_go free.cs free.txq free.ns free.tp good

theorem requestSend_eq (op : Byte) (param tmo : Word) (s : State) :
    requestSend op param tmo s = acceptRequest 0 false (fun s => .ok (issueSend op param tmo s)) s := rfl

theorem requestRecv_eq (op : Byte) (param len tmo : Word) (s : State) :
    requestRecv op param len tmo s =
      acceptRequest 1 (recvBad len tmo) (fun s => .ok (issueRecv op param len tmo s)) s := rfl

/-- An accepted SEND (R151). -/
theorem LinkFree.requestSend {s : State} (free : LinkFree s) (op : Byte) (param tmo : Word) :
    requestSend op param tmo s = .ok (issueSend op param tmo s) :=
  free.accept rfl

/-- An accepted RECV (R152). -/
theorem LinkFree.requestRecv {s : State} (free : LinkFree s) (op : Byte) (param : Word) {len tmo : Word}
    (good : recvBad len tmo = false) : requestRecv op param len tmo s = .ok (issueRecv op param len tmo s) :=
  free.accept good

/-- An accepted SENDPAY reads its payload (R153). -/
theorem LinkFree.requestSendpay {s : State} (free : LinkFree s) {len : Word} (tmo : Word)
    (fits : len.toNat ≤ Config.pbufCap) : requestSendpay len tmo s = sendPayload len tmo s :=
  (requestSendpay_eq len tmo s).trans (free.accept (sendpayBad_eq_false_iff.2 fits))

theorem exec_send (op : Byte) (p tmo : Word) (s : State) :
    exec (.send op p tmo) s = outcomeOf (requestSend op p tmo s) := rfl

theorem exec_recv (op : Byte) (p len tmo : Word) (s : State) :
    exec (.recv op p len tmo) s = outcomeOf (requestRecv op p len tmo s) := rfl

theorem exec_sendpay (len tmo : Word) (s : State) : exec (.sendpay len tmo) s = outcomeOf (requestSendpay len tmo s) :=
  rfl

/-- Settles O20: `LinkFree.requestSend`, with the write count from `issue_first`. -/
theorem sendIssues : Obligations.SendIssues := by
  intro op p tmo s free
  rw [exec_send, free.requestSend, issueSend, issue_first free.txq]
  rfl

/-- Settles O21: `LinkFree.requestRecv`; the check passes by the three bounds. -/
theorem recvIssues : Obligations.RecvIssues := by
  intro op p len tmo s free live fitsPbuf fitsRbuf
  rw [exec_recv, free.requestRecv op p (recvBad_eq_false_iff.2 ⟨live, fitsPbuf, fitsRbuf⟩), issueRecv, edlOf_eq,
    issue_first (s := { s with edl := len + 6 }) free.txq]
  rfl

/-- Settles O22: the bytes below `len` are what the snapshot reads. -/
theorem sendpayIssues : Obligations.SendpayIssues := by
  intro len tmo payload s free fits length bytes
  have read : memRead s.pbuf 0 len.toNat = .ok payload := by
    refine (memRead_ok _ _ _ _).2 ⟨by omega, length, fun k low => ?_⟩
    rw [Nat.zero_add, bytes k low]
  rw [exec_sendpay, free.requestSendpay tmo fits, sendPayload, read]
  change Host.Outcome.next (issueSendpay len tmo payload s) = _
  rw [issueSendpay, issue_first free.txq]
  rfl

/-- Settles O23: the snapshot cannot succeed, and it fails only at an unwritten byte (`memRead_unwritten`). -/
theorem sendpayOfUnwrittenByteFaults : Obligations.SendpayOfUnwrittenByteFaults := by
  intro len tmo k s free fits low missing
  cases read : memRead s.pbuf 0 len.toNat with
  | ok payload =>
    obtain ⟨-, length, bytes⟩ := (memRead_ok _ _ _ _).1 read
    have present := bytes k low
    rw [Nat.zero_add, missing, List.getElem?_eq_getElem (by omega)] at present
    cases present
  | error e =>
    obtain ⟨j, -, high, rfl, unwritten⟩ := memRead_unwritten (by omega) read
    refine ⟨j, by omega, unwritten, ?_⟩
    rw [exec_sendpay, free.requestSendpay tmo fits, sendPayload, read]
    rfl

/-- Settles O24: the write of `PBUF` first, then the SENDPAY, which on a free link reads the payload back. -/
theorem dataOutSends : Obligations.DataOutSends := by
  intro payload s
  have run : exec (.dataOut payload) s =
      outcomeOf (andThen (hostWrite 0 payload s) (requestSendpay (BitVec.ofNat 32 payload.length) 0)) := rfl
  constructor
  · intro long
    have range : memWrite s.pbuf 0 payload = .error (.pbufRange payload.length) := by
      have notFits : ¬ Config.fitsPbuf (0 + payload.length) = true := fun fits =>
        absurd ((Config.fitsPbuf_iff _).1 fits) (by omega)
      rw [memWrite, if_neg notFits, Nat.zero_add]
    rw [run, hostWrite, range]
    rfl
  · intro fits
    have write : memWrite s.pbuf 0 payload = .ok (pbufSetBytes s.pbuf 0 payload) :=
      (memWrite_ok _ _ _ _).2 ⟨by omega, rfl⟩
    have sends : exec (.dataOut payload) s =
        exec (.sendpay (BitVec.ofNat 32 payload.length) 0) { s with pbuf := pbufSetBytes s.pbuf 0 payload } := by
      rw [run, hostWrite, write]
      rfl
    have inside (k : Nat) (low : k < payload.length) :
        pbufGet (pbufSetBytes s.pbuf 0 payload) k = payload[k]? := by
      rw [pbufGet_setBytes, if_pos (by omega), Nat.sub_zero]
    refine ⟨pbufSetBytes s.pbuf 0 payload, inside, fun k high => ?_, sends, fun free => ?_⟩
    · rw [pbufGet_setBytes, if_neg (by omega)]
    · have length : (BitVec.ofNat 32 payload.length).toNat = payload.length := by
        have cap := Config.pbufCap_bounds.2
        rw [BitVec.toNat_ofNat, Nat.mod_eq_of_lt (by omega)]
      rw [sends]
      exact sendpayIssues _ 0 payload { s with pbuf := pbufSetBytes s.pbuf 0 payload }
        ⟨free.cs, free.txq, free.ns, free.tp⟩ (length.trans_le fits) length.symm
        (fun k low => inside k (low.trans_eq length))

/-! ## Wire commands -/

/-- The commands whose host sequence begins with a SEND (43_commands.md R214). -/
def sendCommands : List Command :=
  [.openDev, .closeDev, .usbCheck, .changeBaudrate, .cmosLed, .getEnrollCount, .checkEnrolled, .enrollStart,
   .enroll1, .enroll2, .enroll3, .isPressFinger, .deleteId, .deleteAll, .verify, .identify, .verifyTemplate,
   .identifyTemplate, .captureFinger, .setTemplate]

/-- The commands whose host sequence is a RECV, with the payload length and the timeout (R214). -/
def recvCommands : List (Command × Word × Word) :=
  [(.makeTemplate, 498, 5000), (.getTemplate, 498, 5000), (.getImage, 52116, 10000), (.getRawImage, 19200, 10000)]

theorem profileOf_sendCommands : ∀ c ∈ sendCommands, profileOf c = .sendCmd := by decide

theorem profileOf_recvCommands : ∀ row ∈ recvCommands, profileOf row.1 = .recvData row.2.1 row.2.2 := by decide

/-- The payload lengths of the table fit the least capacities, and its timeouts are not 0. -/
theorem recvCommands_bounds : ∀ row ∈ recvCommands, row.2.2 ≠ 0 ∧ row.2.1.toNat ≤ 52116 := by decide

/-- Settles O18: each row is a command of `sendCommands`, so it is the SEND of its opcode with the default timeout. -/
theorem sendCommandsIssue : Obligations.SendCommandsIssue := by
  intro i op p s free row
  change (i, op) ∈ sendCommands.map (fun c => (commandInstr c p, opcodeOf c)) at row
  obtain ⟨c, listed, same⟩ := List.mem_map.1 row
  obtain ⟨rfl, rfl⟩ := Prod.mk.inj same
  have sends : exec (commandInstr c p) s = exec (.send (opcodeOf c) p 0) s := by
    rw [exec_eq_run, actionOf_commandInstr, commandAction, profileOf_sendCommands c listed]
    rfl
  rw [sends]
  exact sendIssues (opcodeOf c) p 0 s free

/-- Settles O19: each row is a command of `recvCommands`, so it is the RECV of its opcode with the table's length and
timeout. -/
theorem receiveCommandsIssue : Obligations.ReceiveCommandsIssue := by
  intro i op len tmo p s free row
  change (i, op, len, tmo) ∈ recvCommands.map (fun r => (commandInstr r.1 p, opcodeOf r.1, r.2.1, r.2.2)) at row
  obtain ⟨⟨c, l, t⟩, listed, same⟩ := List.mem_map.1 row
  simp only [Prod.mk.injEq] at same
  obtain ⟨rfl, rfl, rfl, rfl⟩ := same
  obtain ⟨live, fits⟩ : t ≠ 0 ∧ l.toNat ≤ 52116 := recvCommands_bounds _ listed
  have pbufCap := Config.pbufCap_bounds.1
  have rbufCap := Config.rbufCap_bounds.1
  have receives : exec (commandInstr c p) s = exec (.recv (opcodeOf c) p l t) s := by
    rw [exec_eq_run, actionOf_commandInstr, commandAction, profileOf_recvCommands _ listed]
    rfl
  rw [receives]
  exact recvIssues (opcodeOf c) p l t s free live (by omega) (by omega)

/-! ## Refusals -/

theorem corrBlocked_iff {s : State} :
    corrBlocked s = true ↔ s.cs ≠ .idle ∨ s.txq ≠ 0 ∨ nsInProgress s.ns = true := by
  simp only [corrBlocked, bnBusy, Bool.or_eq_true, decide_eq_true_eq, or_assoc]

theorem ready_iff {s : State} : ready s = true ↔ s.ns = .locked ∧ s.tp.isOpen = true := by
  simp only [ready, Bool.and_eq_true, decide_eq_true_eq]

/-- The check of a receive fails for its three reasons (42_correlator.md R150). -/
theorem recvBad_eq (len tmo : Word) :
    recvBad len tmo = decide (tmo = 0 ∨ Config.pbufCap < len.toNat ∨ Config.rbufCap < len.toNat + 6) := by
  refine Bool.eq_iff_iff.2 ?_
  rw [← Bool.not_eq_false, recvBad_eq_false_iff, decide_eq_true_eq]
  simp only [not_and_or, not_not, not_le]

theorem sendpayBad_eq (len : Word) : sendpayBad len = decide (Config.pbufCap < len.toNat) := by
  refine Bool.eq_iff_iff.2 ?_
  rw [← Bool.not_eq_false, sendpayBad_eq_false_iff, decide_eq_true_eq, not_le]

theorem mem_recvCommands {c : Command} {len tmo : Word} (profile : profileOf c = .recvData len tmo) :
    (c, len, tmo) ∈ recvCommands := by
  cases c <;> cases profile <;> decide

/-- A wire command is a correlator request whose length and timeout pass their check (43_commands.md R214). -/
theorem run_commandInstr (c : Command) (p : Word) (s : State) :
    ∃ go, (actionOf (commandInstr c p)).run s = acceptRequest
      (if c ∈ [Command.makeTemplate, .getTemplate, .getImage, .getRawImage] then 1 else 0) false go s := by
  rw [actionOf_commandInstr, commandAction]
  cases profile : profileOf c with
  | sendCmd =>
    have receives : ∀ d ∈ [Command.makeTemplate, .getTemplate, .getImage, .getRawImage], profileOf d ≠ .sendCmd := by
      decide
    rw [if_neg fun listed => receives c listed profile]
    exact ⟨_, requestSend_eq (opcodeOf c) p 0 s⟩
  | recvData len tmo =>
    have row := mem_recvCommands profile
    have listed : ∀ r ∈ recvCommands, r.1 ∈ [Command.makeTemplate, .getTemplate, .getImage, .getRawImage] := by decide
    obtain ⟨live, fits⟩ : tmo ≠ 0 ∧ len.toNat ≤ 52116 := recvCommands_bounds _ row
    have pbufCap := Config.pbufCap_bounds.1
    have rbufCap := Config.rbufCap_bounds.1
    have good : recvBad len tmo = false := recvBad_eq_false_iff.2 ⟨live, by omega, by omega⟩
    rw [if_pos (listed _ row), ← good]
    exact ⟨_, requestRecv_eq (opcodeOf c) p len tmo s⟩

/-- R150's refusals in their order, where no register read is reserved. -/
theorem acceptRequest_refuses {req : BitVec 3} {bad : Bool} {go : State → Except Fault State} {s : State} {st : Status}
    (legal : Legal s)
    (cause : ((s.cs ≠ .idle ∨ s.txq ≠ 0 ∨ nsInProgress s.ns = true) ∧ st = .busy) ∨
      ((s.cs = .idle ∧ s.txq = 0 ∧ nsInProgress s.ns = false) ∧ (s.ns ≠ .locked ∨ s.tp.isOpen = false) ∧
        st = .notReady) ∨
      (LinkFree s ∧ bad = true ∧ st = .badRequest)) :
    acceptRequest req bad go s = .ok (reject req st s) := by
  rw [acceptRequest_legal legal]
  rcases cause with ⟨blocked, rfl⟩ | ⟨⟨idle, txq, noBn⟩, down, rfl⟩ | ⟨free, rfl, rfl⟩
  · rw [if_pos (corrBlocked_iff.2 blocked)]
  · have unblocked : ¬ corrBlocked s = true := by
      rw [corrBlocked_iff]
      simp [idle, txq, noBn]
    have unready : (!ready s) = true := by
      rw [Bool.not_eq_true', ← Bool.not_eq_true, ready_iff]
      rcases down with ns | tp
      · simp [ns]
      · simp [tp]
    rw [if_neg unblocked, if_pos unready]
  · obtain ⟨unblocked, up⟩ := (accept_conditions s).2 ⟨free.cs, free.txq, free.ns, free.tp⟩
    simp [unblocked, up]

/-- Settles O25: each of the four kinds of instruction is an accepted or refused request with this check
(`run_commandInstr`, `recvBad_eq`, `sendpayBad_eq`). -/
theorem refusalsInOrder : Obligations.RefusalsInOrder := by
  intro i req bad s legal kind st cause
  have request : ∃ go, (actionOf i).run s = acceptRequest req bad go s := by
    rcases kind with ⟨op, p, tmo, rfl, rfl, rfl⟩ | ⟨op, p, len, tmo, rfl, rfl, check⟩ | ⟨len, tmo, rfl, rfl, check⟩ |
      ⟨c, p, rfl, rfl, rfl⟩
    · exact ⟨_, requestSend_eq op p tmo s⟩
    · rw [check, ← recvBad_eq]
      exact ⟨_, requestRecv_eq op p len tmo s⟩
    · rw [check, ← sendpayBad_eq]
      exact ⟨_, requestSendpay_eq len tmo s⟩
    · exact run_commandInstr c p s
  obtain ⟨go, runs⟩ := request
  rw [exec_eq_run, runs, acceptRequest_refuses legal cause]
  rfl

/-- Settles O27: by the three rows. -/
theorem reservedRequestsRefused : Obligations.ReservedRequestsRefused := by
  intro i k s row
  simp only [List.mem_cons, Prod.mk.injEq, List.not_mem_nil, or_false] at row
  rcases row with ⟨rfl, rfl⟩ | ⟨rfl, rfl⟩ | ⟨rfl, rfl⟩ <;> rfl

/-! ## Single flight -/

/-- The port an operation is asked for on. -/
def Action.port : Action → Port
  | .send _ _ _ | .recv _ _ _ _ | .sendpay _ _ | .dataOut _ | .negotiate _ | .sessionReset | .refuse _ => .host
  | .chunk _ | .txDone _ _ | .openDone _ | .closeDone | .tpError | .tick | .nothing => .link

theorem port_actionOf (i : Instr) : (actionOf i).port = portOf i := by
  cases i <;> rfl

theorem actionOf_eq_sessionReset {i : Instr} (h : actionOf i = .sessionReset) : i = .sessionReset := by
  cases i with
  | sessionReset => rfl
  | _ => cases h

/-- `t` is `s` with a refusal answered: the result, perhaps STATE_BAD, and `PBUF` as `m`. -/
def Refused (s t : State) (m : Memory) : Prop :=
  ∃ req st bad, (st = .busy ∨ st = .badRequest) ∧ t = reject req st { s with stateBad := bad, pbuf := m }

/-- While an operation is outstanding a correlator request is BUSY, in a state with reserved encodings too. -/
theorem acceptRequest_busy {req : BitVec 3} {bad : Bool} {go : State → Except Fault State} {s t : State}
    (busy : s.cs ≠ .idle) (h : acceptRequest req bad go s = .ok t) : Refused s t s.pbuf := by
  have blocked : corrBlocked s = true := corrBlocked_iff.2 (.inl busy)
  rcases acceptRequest_ok h with ⟨-, rfl⟩ | ⟨free, -⟩ | ⟨free, -⟩ | ⟨free, -⟩
  · exact ⟨req, .busy, _, .inl rfl, rfl⟩
  all_goals
    rw [blocked] at free
    cases free

/-- Any request of the host but SESSION_RESET is refused while an operation is outstanding. -/
theorem Action.refused_while_busy {a : Action} {s t : State} (host : a.port = .host) (other : a ≠ .sessionReset)
    (busy : s.cs ≠ .idle) (h : a.run s = .ok t) :
    ∃ m, Refused s t m ∧ ((∀ payload, a ≠ .dataOut payload) → m = s.pbuf) := by
  cases a with
  | send op param tmo =>
    exact ⟨s.pbuf, acceptRequest_busy busy ((requestSend_eq op param tmo s).symm.trans h), fun _ => rfl⟩
  | recv op param len tmo =>
    exact ⟨s.pbuf, acceptRequest_busy busy ((requestRecv_eq op param len tmo s).symm.trans h), fun _ => rfl⟩
  | sendpay len tmo =>
    exact ⟨s.pbuf, acceptRequest_busy busy ((requestSendpay_eq len tmo s).symm.trans h), fun _ => rfl⟩
  | dataOut payload =>
    obtain ⟨u, write, request⟩ := andThen_ok.1 h
    obtain ⟨-, rfl⟩ := hostWrite_ok write
    obtain ⟨req, st, bad, refused, rfl⟩ :=
      acceptRequest_busy (s := { s with pbuf := pbufSetBytes s.pbuf 0 payload }) busy
      request
    exact ⟨_, ⟨req, st, bad, refused, rfl⟩, fun notDataOut => absurd rfl (notDataOut payload)⟩
  | negotiate target =>
    have blocked : corrBlocked (noteTpWait (noteNs (noteCs s))) = true := corrBlocked_iff.2 (.inl busy)
    simp only [Action.run, requestNegotiate, blocked, Bool.true_or, if_true] at h
    cases h
    exact ⟨s.pbuf, ⟨reqNegotiate, .busy, _, .inl rfl, rfl⟩, fun _ => rfl⟩
  | sessionReset => exact absurd rfl other
  | refuse k =>
    cases h
    exact ⟨s.pbuf, ⟨_, .badRequest, s.stateBad, .inr rfl, rfl⟩, fun _ => rfl⟩
  | chunk _ | txDone _ _ | openDone _ | closeDone | tpError | tick | nothing => cases host

/-- Settles O26: a refusal (`Action.refused_while_busy`) changes none of the listed registers. -/
theorem singleFlight : Obligations.SingleFlight := by
  intro i s t port other busy run
  obtain ⟨m, ⟨req, st, bad, refused, rfl⟩, same⟩ := Action.refused_while_busy ((port_actionOf i).trans port)
    (fun reset => other (actionOf_eq_sessionReset reset)) busy (exec_next_iff.1 run)
  refine ⟨rfl, rfl, rfl, rfl, rfl, rfl, rfl, rfl, rfl, rfl, rfl, ?receive_side⟩
  refine ⟨rfl, rfl, rfl, rfl, rfl, rfl, rfl, rfl, fun notDataOut => ?pbuf, _, rfl, rfl, refused⟩
  exact same fun payload row => notDataOut payload (actionOf_eq_dataOut row)

/-! ## NEGOTIATE -/

theorem exec_negotiate (target : Word) (s : State) :
    exec (.negotiate target) s = outcomeOf (requestNegotiate target s) := rfl

/-- NEGOTIATE where no register read is reserved (44_baud_negotiator.md R230). -/
theorem requestNegotiate_named {target : Word} {s : State} (cs : s.cs ≠ .reserved) (ns : nsReserved s.ns = false)
    (wait : s.tp.wait ≠ .reserved) :
    requestNegotiate target s =
      if corrBlocked s || decide (s.tp.wait ≠ .none) then .ok (reject reqNegotiate .busy s)
      else startNegotiation target s := by
  simp only [requestNegotiate, noteCs_legal cs, noteNs_legal ns, noteTpWait_legal wait]

/-- The registers a negotiation starts from (R231). -/
def withTarget (target : Word) (s : State) : State :=
  { s with target := target, nidx := 0, ident := { s.ident with valid := false } }

/-- Settles O38: nothing blocks the request, and candidate 0 is 9600 (R231, R232). -/
theorem negotiateStarts : Obligations.NegotiateStarts := by
  intro target s idle txq wait ns
  have named : nsReserved s.ns = false ∧ nsInProgress s.ns = false := by
    rcases ns with ns | ns | ns | ns <;> rw [ns] <;> exact ⟨rfl, rfl⟩
  have free : ¬ (corrBlocked s || decide (s.tp.wait ≠ .none)) = true := by
    simp [corrBlocked, bnBusy, idle, txq, wait, named.2]
  rw [exec_negotiate, requestNegotiate_named (by simp [idle]) named.1 (by simp [wait]), if_neg free]
  have starts : startNegotiation target s =
      if s.tp.isOpen = true then .ok (closeTransport .preclose (withTarget target s))
      else openAttempt (withTarget target s) := rfl
  rw [starts]
  split <;> rfl

/-- Settles O39: one of the four causes blocks the request. -/
theorem negotiateBusy : Obligations.NegotiateBusy := by
  intro target s legal cause
  have blocked : (corrBlocked s || decide (s.tp.wait ≠ .none)) = true := by
    rw [Bool.or_eq_true, corrBlocked_iff, decide_eq_true_eq, or_assoc, or_assoc]
    exact cause
  rw [exec_negotiate, requestNegotiate_named legal.cs legal.ns legal.wait, if_pos blocked]
  rfl

end Sys2Proof.Machine
end

section
/-! PROOFS. Binding of received frames (42_correlator.md section 2), write answers and the timer (sections 1 and 3), and
events without effect (60_exceptions.md section 2). -/

namespace Sys2Proof.Machine

/-! ## Delivery -/

/-- A Response with no listener is counted (42_correlator.md R160). -/
theorem deliverResponse_unbound {s : State} (cs : s.cs = .idle ∨ s.cs = .waitData) (d : DecodedResponse) :
    deliverResponse d s = .ok { s with dropResp := s.dropResp + 1 } := by
  have other : s.cs ≠ .waitResp ∧ s.cs ≠ .reserved := by rcases cs with h | h <;> simp [h]
  rw [deliverResponse, if_pos other.1, noteCs_legal other.2]

/-- A Response that is not acknowledged ends the operation (R158). -/
theorem deliverResponse_nack {s : State} {d : DecodedResponse} (waits : s.cs = .waitResp) (nack : d.ack = false) :
    deliverResponse d s = complete (nackResult d) s := by
  rw [deliverResponse, if_neg (not_not.2 waits), if_pos nack]

/-- An ACK to a receive opens its data phase (R157). -/
theorem deliverResponse_recv {s : State} {d : DecodedResponse} (waits : s.cs = .waitResp) (ack : d.ack = true)
    (recv : s.pend.kind = .recv) :
    deliverResponse d s =
      .ok { s with cs := .waitData, pend := { s.pend with ackp := d.param, rcsum := d.csumOk } } := by
  rw [deliverResponse, if_neg (not_not.2 waits), if_neg (by simp [ack]), if_pos recv]

/-- An ACK to any other operation ends it (R156). -/
theorem deliverResponse_ack {s : State} {d : DecodedResponse} (waits : s.cs = .waitResp) (ack : d.ack = true)
    (kind : s.pend.kind = .cmd ∨ s.pend.kind = .sendpay) :
    deliverResponse d s = complete { status := .ok, value := d.param, rcsum := d.csumOk } s := by
  have named : s.pend.kind ≠ .recv ∧ s.pend.kind ≠ .reserved := by rcases kind with h | h <;> simp [h]
  rw [deliverResponse, if_neg (not_not.2 waits), if_neg (by simp [ack]), if_neg named.1, noteKind_legal named.2]

/-- A Data frame outside a data phase is counted (R162). -/
theorem deliverData_unbound {s : State} (cs : s.cs = .idle ∨ s.cs = .waitResp) (d : DecodedData) :
    deliverData d s = .ok { s with dropData := s.dropData + 1 } := by
  have other : s.cs ≠ .waitData ∧ s.cs ≠ .reserved := by rcases cs with h | h <;> simp [h]
  rw [deliverData, if_pos other.1, noteCs_legal other.2]

/-- A Data frame in a data phase is written to `PBUF` and ends the receive (R161). -/
theorem deliverData_bound {s : State} {d : DecodedData} (waits : s.cs = .waitData)
    (fits : d.payload.length ≤ Config.pbufCap) :
    deliverData d s =
      complete { status := .ok, value := s.pend.ackp, len := BitVec.ofNat 32 d.payload.length,
                 rcsum := s.pend.rcsum, dcsum := d.csumOk }
        { s with pbuf := pbufSetBytes s.pbuf 0 d.payload } := by
  rw [deliverData, if_neg (not_not.2 waits), (memWrite_ok _ _ _ _).2 ⟨by omega, rfl⟩]

/-! ## The Response rows -/

/-- What the decoder hands on from a Response frame with these fields. -/
def responseFields (dev : Half) (p : Word) (mark csum : Half) : DecodedResponse :=
  { dev := dev, param := p, mark := mark, ack := acknowledged mark,
    csumOk := checksumValid (responseFrame dev p mark csum) }

theorem exec_responseAck {s : State} (empty : s.rb = []) (dev : Half) (p : Word) (csum : Half) :
    exec (.responseAck dev p csum) s = outcomeOf (deliverResponse (responseFields dev p Config.ack csum) s) :=
  congrArg outcomeOf (feed_responseFrame dev Config.ack csum p s empty)

theorem exec_responseNack {s : State} (empty : s.rb = []) (dev : Half) (p : Word) (csum : Half) :
    exec (.responseNack dev p csum) s = outcomeOf (deliverResponse (responseFields dev p Config.nack csum) s) :=
  congrArg outcomeOf (feed_responseFrame dev Config.nack csum p s empty)

theorem exec_responseOtherMarker {s : State} (empty : s.rb = []) (dev : Half) (p : Word) (mark csum : Half) :
    exec (.responseOtherMarker dev p mark csum) s = outcomeOf (deliverResponse (responseFields dev p mark csum) s) :=
  congrArg outcomeOf (feed_responseFrame dev mark csum p s empty)

/-- Settles O28: the ACK completes the operation; `complete_of_owner_host` and `complete_of_change_ok` say how. -/
theorem ackCompletes : Obligations.AckCompletes := by
  intro dev csum p s empty waits
  rw [exec_responseAck empty]
  refine ⟨fun owner kind => ?_, fun owner kind changing => ?_⟩
  · have named : s.pend.kind ≠ .reserved := by rcases kind with h | h <;> simp [h]
    rw [deliverResponse_ack waits rfl kind, complete_of_owner_host owner named]
    rfl
  · rw [deliverResponse_ack waits rfl (.inl kind), complete_of_change_ok owner changing rfl]
    rfl

/-- Settles O29: `deliverResponse_recv`. -/
theorem ackOpensDataPhase : Obligations.AckOpensDataPhase := by
  intro dev csum p s empty waits recv
  rw [exec_responseAck empty, deliverResponse_recv waits rfl recv]
  rfl

/-- The result of a Response that is not acknowledged, in the terms of the rule (R158, R159). -/
theorem resultOf_nackResult (req : BitVec 3) (d : DecodedResponse) :
    resultOf req (nackResult d) = { ResultRecord.zero with
      valid := true, req := req, value := d.param,
      status := if d.param.toNat < 200 then .duplicateId else .deviceNack,
      nack := if d.param.toNat < 200 then .none else nackMeaning d.param,
      rcsum := d.csumOk } := by
  have limit : d.param < Config.dupLimit ↔ d.param.toNat < 200 := Iff.rfl
  unfold nackResult
  by_cases duplicate : d.param.toNat < 200
  · rw [if_pos (limit.2 duplicate), if_pos duplicate, if_pos duplicate]
    rfl
  · rw [if_neg (mt limit.1 duplicate), if_neg duplicate, if_neg duplicate]
    rfl

/-- Settles O30: the Response ends the operation with `nackResult`, whose status is an error; the three equations of
completion give the next states. -/
theorem nackTranslation : Obligations.NackTranslation := by
  intro dev mark csum p s notAck empty waits legal answer ends
  have refused : (responseFields dev p mark csum).ack = false := beq_eq_false_iff_ne.2 notAck
  have result (req : BitVec 3) : resultOf req (nackResult (responseFields dev p mark csum)) = answer req :=
    resultOf_nackResult req _
  have failed : (nackResult (responseFields dev p mark csum)).status ≠ .ok := by
    rcases nackResult_status (responseFields dev p mark csum) with h | h <;> simp [h]
  have runs {t : State} (completes : complete (nackResult (responseFields dev p mark csum)) s = .ok t) : ends t := by
    have delivered := (deliverResponse_nack waits refused).trans completes
    refine ⟨by rw [exec_responseOtherMarker empty, delivered]; rfl, ?_⟩
    rintro rfl
    exact (exec_responseNack empty dev p csum).trans (congrArg outcomeOf delivered)
  refine ⟨fun owner => runs ?_, fun owner probing => runs ?_, fun owner changing => runs ?_⟩
  · rw [complete_of_owner_host owner legal.kind, emitResult, result]
  · rw [complete_of_probe_failed owner probing failed]
    rfl
  · rw [complete_of_change_failed owner changing failed, negotiationFailed, emitResult,
      show resultOf reqNegotiate (nackResult (responseFields dev p mark csum)) = answer 3 from result 3]

/-- Settles O31: `deliverResponse_unbound`, also for the three rows. -/
theorem unboundResponseDropped : Obligations.UnboundResponseDropped := by
  intro dev mark csum p s cs
  have dropped := deliverResponse_unbound cs
  refine ⟨dropped, fun empty => ⟨?_, ?_, ?_⟩⟩
  · rw [exec_responseAck empty, dropped]
    rfl
  · rw [exec_responseNack empty, dropped]
    rfl
  · rw [exec_responseOtherMarker empty, dropped]
    rfl

/-! ## The Data row -/

/-- What the decoder hands on from a Data frame with these fields. -/
def dataFields (dev : Half) (payload : List Byte) (csum : Half) : DecodedData :=
  { dev := dev, payload := payload, csumOk := checksumValid (dataFrame dev payload csum) }

theorem exec_dataIn {s : State} {payload : List Byte} (empty : s.rb = []) (edl : s.edl.toNat = payload.length + 6)
    (fits : payload.length + 6 ≤ Config.rbufCap) (dev csum : Half) :
    exec (.dataIn dev payload csum) s = outcomeOf (deliverData (dataFields dev payload csum) s) :=
  congrArg outcomeOf (feed_dataFrame dev csum payload s empty edl fits)

/-- The bytes of a payload written from address 0, and only those. -/
theorem pbufGet_written (m : Memory) (payload : List Byte) :
    (∀ k, k < payload.length → pbufGet (pbufSetBytes m 0 payload) k = payload[k]?) ∧
      (∀ k, payload.length ≤ k → pbufGet (pbufSetBytes m 0 payload) k = pbufGet m k) := by
  constructor
  · intro k low
    rw [pbufGet_setBytes, if_pos (by omega), Nat.sub_zero]
  · intro k high
    rw [pbufGet_setBytes, if_neg (by omega)]

/-- Settles O32: the frame is written to `PBUF` and ends the host's receive. -/
theorem dataCompletesReceive : Obligations.DataCompletesReceive := by
  intro dev csum payload s empty waits recv owner edl fits cap
  refine ⟨pbufSetBytes s.pbuf 0 payload, ?_, pbufGet_written s.pbuf payload⟩
  have ends := (deliverData_bound (d := dataFields dev payload csum) waits fits).trans
    (complete_of_owner_host owner (by simp [recv]))
  rw [exec_dataIn empty edl cap, ends, recv]
  rfl

/-- Settles O33: `deliverData_unbound`, also for the row. -/
theorem unboundDataDropped : Obligations.UnboundDataDropped := by
  intro dev csum payload s cs
  refine ⟨deliverData_unbound cs, fun empty edl cap => ?_⟩
  rw [exec_dataIn empty edl cap, deliverData_unbound cs]
  rfl

/-! ## Write answers -/

theorem exec_txDone (ok : Bool) (count : Word) (s : State) :
    exec (.txDone ok count) s = outcomeOf (onTxDone ok count s) :=
  rfl

/-- Settles O34: the tests of R155 in order; with one write unanswered none is left. -/
theorem txDoneAnswers : Obligations.TxDoneAnswers := by
  intro ok count s legal
  rw [exec_txDone, onTxDone]
  by_cases none : s.txq = 0
  · rw [if_pos none, if_pos none]
    rfl
  rw [if_neg none, if_neg none]
  by_cases older : s.txq = 1
  · have last : ¬ s.txq - 1 ≠ 0 := by rw [older]; decide
    have answered : s.txq - 1 = 0 := not_not.1 last
    rw [if_neg last]
    by_cases idle : s.cs = .idle
    · rw [if_pos idle, if_pos (.inr idle)]
      rfl
    · have outstanding : ¬ (s.txq ≠ 1 ∨ s.cs = .idle) := fun h => h.elim (absurd older) idle
      have noted : noteKind (noteCs { s with txq := s.txq - 1 }) = { s with txq := 0 } := by
        rw [noteCs_legal (s := { s with txq := s.txq - 1 }) legal.cs,
          noteKind_legal (s := { s with txq := s.txq - 1 }) legal.kind, answered]
      have length : txLen s = if s.pend.kind = .sendpay then s.pend.len.toNat + 6 else 12 := rfl
      rw [if_neg idle, if_neg outstanding]
      simp only [noted, length]
      by_cases good : ok = true ∧ count.toNat = if s.pend.kind = .sendpay then s.pend.len.toNat + 6 else 12
      · rw [if_pos good, if_neg (by simp [good])]
        rfl
      · have bad : ok = false ∨ count.toNat ≠ if s.pend.kind = .sendpay then s.pend.len.toNat + 6 else 12 := by
          rw [not_and_or, Bool.not_eq_true] at good
          exact good
        rw [if_neg good, if_pos bad]
  · have more : s.txq - 1 ≠ 0 := by
      have dec : ∀ x : BitVec 2, x ≠ 1 → x - 1 ≠ 0 := by decide
      exact dec s.txq older
    rw [if_pos more, if_pos (.inl older)]
    rfl

/-! ## The timer -/

theorem exec_tick (s : State) : exec .tick s = outcomeOf (onTick s) := rfl

theorem onTick_off {s : State} (off : s.tmrEn = false) : onTick s = .ok s := if_pos off

/-- A tick that is not the last. -/
theorem onTick_running {s : State} (on : s.tmrEn = true) (more : s.tmr ≠ 1) :
    onTick s = .ok { s with tmr := s.tmr - 1 } := by
  have left : s.tmr - 1 ≠ 0 := by bv_omega
  rw [onTick, if_neg (by simp [on]), if_pos left]

/-- The last tick. -/
theorem onTick_last {s : State} (on : s.tmrEn = true) (last : s.tmr = 1) :
    onTick s = onExpiry { s with tmr := 0, tmrEn := false } := by
  have none : s.tmr - 1 = 0 := by rw [last]; rfl
  rw [onTick, if_neg (by simp [on]), none, if_neg (by simp)]

/-- The result of a time-out (42_correlator.md R163). -/
def lateResult (s : State) : OpResult := { status := .timeout, tcat := s.pend.tcat, rcsum := s.pend.rcsum }

/-- On an outstanding operation the timer's expiry is the operation's time-out. -/
theorem onTick_timeout {s : State} (named : s.cs ≠ .reserved) (on : s.tmrEn = true) (last : s.tmr = 1)
    (busy : s.cs ≠ .idle) : onTick s = complete (lateResult s) { s with tmr := 0, tmrEn := false } := by
  rw [onTick_last on last, onExpiry, if_pos busy, noteCs_legal (s := { s with tmr := 0, tmrEn := false }) named]
  rfl

/-- Settles O36: the timer's equations, and those of completion for a time-out. -/
theorem tickEffects : Obligations.TickEffects := by
  intro s legal
  refine ⟨fun off => ?off, fun on _ more => ?running, fun on last busy => ?expiry,
    fun on last idle settling => ?settled⟩
  case off =>
    rw [exec_tick, onTick_off off]
    rfl
  case running =>
    rw [exec_tick, onTick_running on more]
    rfl
  case expiry =>
    have late : (lateResult s).status ≠ .ok := by simp [lateResult]
    rw [exec_tick, onTick_timeout legal.cs on last busy]
    refine ⟨fun owner => ?_, fun owner probing => ?_, fun owner changing => ?_⟩
    · rw [complete_of_owner_host (s := { s with tmr := 0, tmrEn := false }) owner legal.kind]
      rfl
    · rw [complete_of_probe_failed (s := { s with tmr := 0, tmrEn := false }) owner probing late]
      rfl
    · rw [complete_of_change_failed (s := { s with tmr := 0, tmrEn := false }) owner changing late]
      rfl
  case settled =>
    rw [exec_tick, onTick_last on last, onExpiry, if_neg (not_not.2 idle), if_pos settling]
    rfl

/-- Instructions one after the other, the first of which answers `u`. -/
theorem execAll_cons {i : Instr} {rest : List Instr} {s u : State} (first : exec i s = .next u) :
    execAll (i :: rest) s = execAll rest u := by
  rw [execAll, first]

theorem execAll_singleton (i : Instr) (s : State) : execAll [i] s = exec i s := by
  rw [execAll]
  cases exec i s <;> rfl

theorem execAll_append {first rest : List Instr} {s u : State} (h : execAll first s = .next u) :
    execAll (first ++ rest) s = execAll rest u := by
  induction first generalizing s with
  | nil =>
    cases h
    rfl
  | cons i first ih =>
    rw [execAll] at h
    split at h
    · next t run =>
      rw [List.cons_append, execAll_cons run]
      exact ih h
    · cases h
    · cases h

/-- A running timer loses one tick at a time. -/
theorem execAll_ticks (n : Nat) : ∀ {s : State} {left : Nat}, s.tmrEn = true → s.tmr.toNat = n + left → 0 < left →
    execAll (List.replicate n .tick) s = .next { s with tmr := BitVec.ofNat 32 left } := by
  induction n with
  | zero =>
    intro s left on ticks _
    have same : BitVec.ofNat 32 left = s.tmr := by
      have := s.tmr.isLt
      apply BitVec.eq_of_toNat_eq
      rw [BitVec.toNat_ofNat]
      omega
    rw [same]
    rfl
  | succ n ih =>
    intro s left on ticks some_
    have more : s.tmr ≠ 1 := by
      intro one
      have : s.tmr.toNat = 1 := by rw [one]; rfl
      omega
    have fewer : (s.tmr - 1).toNat = n + left := by
      have := s.tmr.isLt
      bv_omega
    rw [List.replicate_succ, execAll_cons ((exec_tick s).trans (congrArg outcomeOf (onTick_running on more)))]
    exact ih (s := { s with tmr := s.tmr - 1 }) on fewer some_

/-- Settles O37: `execAll_ticks` down to one tick, and the last tick is the time-out of a host's operation. -/
theorem timerExpiresExactly : Obligations.TimerExpiresExactly := by
  intro n s legal on ticks busy owner
  have counted : execAll (List.replicate n .tick) s = .next { s with tmr := 1 } :=
    execAll_ticks n (left := 1) on ticks Nat.one_pos
  have legal' : Legal { s with tmr := 1 } := ⟨legal.cs, legal.kind, legal.ns, legal.wait⟩
  obtain ⟨-, -, expires, -⟩ := tickEffects { s with tmr := 1 } legal'
  obtain ⟨timesOut, -, -⟩ := expires on rfl busy
  have run : execAll (List.replicate (n + 1) .tick) s = exec .tick { s with tmr := 1 } := by
    rw [List.replicate_succ', execAll_append counted, execAll_singleton]
  exact ⟨counted, _, run.trans (timesOut owner), rfl, rfl, rfl, rfl, rfl⟩

/-! ## Events without effect -/

theorem onOpenDone_unasked {s : State} (named : s.tp.wait ≠ .reserved) (wait : s.tp.wait ≠ .open_) (ok : Bool) :
    onOpenDone ok s = .ok s := by
  rw [onOpenDone, if_pos wait, noteTpWait_legal named]

theorem onCloseDone_unasked {s : State} (named : s.tp.wait ≠ .reserved) (wait : s.tp.wait ≠ .close) :
    onCloseDone s = .ok s := by
  rw [onCloseDone, if_pos wait, noteTpWait_legal named]

theorem exec_openDone (ok : Bool) (s : State) : exec (.openDone ok) s = outcomeOf (onOpenDone ok s) := rfl

theorem exec_closeDone (ok : Bool) (s : State) : exec (.closeDone ok) s = outcomeOf (onCloseDone s) := rfl

/-- Settles O47: each event's first test fails (60_exceptions.md R264). -/
theorem eventsWithoutEffect : Obligations.EventsWithoutEffect := by
  intro ok count s legal
  refine ⟨rfl, rfl, fun none => ?_, fun wait => ?_, fun wait => ?_, fun off => ?_⟩
  · rw [exec_txDone, onTxDone, if_pos none]
    rfl
  · rw [exec_openDone, onOpenDone_unasked legal.wait wait]
    rfl
  · rw [exec_closeDone, onCloseDone_unasked legal.wait wait]
    rfl
  · rw [exec_tick, onTick_off off]
    rfl

/-! ## Reserved encodings -/

/-- Settles O49: each rule notes the register it reads and goes on (60_exceptions.md R272). -/
theorem reservedEncodingSetsFaultBit : Obligations.ReservedEncodingSetsFaultBit := by
  intro s
  refine ⟨fun cs op p tmo => ?send, fun k ns => ?tpError, fun wait ok => ?closeDone,
    fun kind waits owner on last => ?tick⟩
  case send =>
    have blocked : corrBlocked (noteNs (noteCs s)) = true := corrBlocked_iff.2 (.inl (by simp [cs]))
    have bad : (noteNs (noteCs s)).stateBad = true := by simp [noteNs, noteCs, cs, csReserved]
    refine ⟨reject 0 .busy (noteNs (noteCs s)), ?_, bad, rfl⟩
    rw [exec_send, requestSend, acceptRequest]
    simp only [blocked, if_true]
    rfl
  case tpError =>
    have bad : (noteNs s).stateBad = true := by simp [noteNs, ns, nsReserved]
    refine ⟨emit .terrNotify { noteNs s with terr := true }, ?_, bad, rfl⟩
    rw [exec_tpError, onTpError, if_neg (by simp [ns])]
    rfl
  case closeDone =>
    have bad : (noteTpWait s).stateBad = true := by simp [noteTpWait, wait, tpWaitReserved]
    refine ⟨noteTpWait s, ?_, bad, rfl⟩
    rw [exec_closeDone, onCloseDone, if_pos (by simp [wait])]
    rfl
  case tick =>
    have completes : exec .tick s = .next (emitResult (kindCode s.pend.kind) (lateResult s)
        (noteKind { s with tmr := 0, cs := .idle, tmrEn := false })) := by
      rw [exec_tick, onTick_timeout (by simp [waits]) on last (by simp [waits]), complete]
      simp only [owner]
      rfl
    have bad : (noteKind { s with tmr := 0, cs := .idle, tmrEn := false }).stateBad = true := by
      simp [noteKind, kind, kindReserved]
    exact ⟨_, completes, bad, rfl, rfl⟩

end Sys2Proof.Machine
end

section
/-! PROOFS. The negotiator (44_baud_negotiator.md): transport answers and the identity registers. -/

namespace Sys2Proof.Machine

/-! ## Candidates -/

/-- The rate of a candidate (10_state.md R30). -/
theorem rate_of_row {k : BitVec 3} {b : Word}
    (row : (k, b) ∈ [((0 : BitVec 3), (9600 : Word)), (1, 115200), (2, 57600), (3, 38400), (4, 19200)]) :
    Config.baudList[k.toNat]? = some b := by
  simp only [List.mem_cons, Prod.mk.injEq, List.not_mem_nil, or_false] at row
  rcases row with ⟨rfl, rfl⟩ | ⟨rfl, rfl⟩ | ⟨rfl, rfl⟩ | ⟨rfl, rfl⟩ | ⟨rfl, rfl⟩ <;> rfl

/-- The candidate after each but the last. -/
theorem next_of_row {k : BitVec 3} {b : Word}
    (row : (k, b) ∈ [((0 : BitVec 3), (115200 : Word)), (1, 57600), (2, 38400), (3, 19200)]) :
    k + 1 ≠ Config.nAttempt ∧ Config.baudList[(k + 1).toNat]? = some b := by
  simp only [List.mem_cons, Prod.mk.injEq, List.not_mem_nil, or_false] at row
  rcases row with ⟨rfl, rfl⟩ | ⟨rfl, rfl⟩ | ⟨rfl, rfl⟩ | ⟨rfl, rfl⟩ <;> exact ⟨by decide, rfl⟩

theorem openAttempt_of_rate {s : State} {b : Word} (rate : Config.baudList[s.nidx.toNat]? = some b) :
    openAttempt s = .ok (openTransport b .opening s) := by
  rw [openAttempt, candidate_ok.2 rate]

/-- With a candidate left the next one is opened (R237). -/
theorem nextCandidate_row {s : State} {b : Word}
    (row : (s.nidx, b) ∈ [((0 : BitVec 3), (115200 : Word)), (1, 57600), (2, 38400), (3, 19200)]) :
    nextCandidate s = .ok (openTransport b .opening { s with nidx := s.nidx + 1 }) := by
  obtain ⟨more, rate⟩ := next_of_row row
  rw [nextCandidate, if_neg more]
  exact openAttempt_of_rate (s := { s with nidx := s.nidx + 1 }) rate

/-- After the last candidate the negotiation has failed (R237). -/
theorem nextCandidate_last {s : State} (last : s.nidx = 4) :
    nextCandidate s =
      .ok (emitResult reqNegotiate { status := .baudExhausted } { s with nidx := 5, ns := .exhausted }) := by
  have next : s.nidx + 1 = 5 := by rw [last]; rfl
  rw [nextCandidate, next]
  exact if_pos rfl

/-! ## Transport answers -/

/-- Settles O40: the arcs of `afterOpen` on success. -/
theorem openDoneSucceeds : Obligations.OpenDoneSucceeds := by
  intro s wait
  refine ⟨fun ns => ?_, fun ns => ?_, fun notOpening notReopening named => ?_⟩
  · rw [exec_openDone, onOpenDone_of_wait wait (by rw [ns]; rfl), afterOpen_opening (s := openAnswered true s) ns,
      ← edlOf_eq]
    rfl
  · rw [exec_openDone, onOpenDone_of_wait wait (by rw [ns]; rfl), afterOpen_reopening (s := openAnswered true s) ns]
    rfl
  · rw [exec_openDone, onOpenDone_of_wait wait named,
      afterOpen_other (s := openAnswered true s) notOpening notReopening]
    rfl

/-- Settles O41: the arcs of `afterOpen` on failure. -/
theorem openDoneFails : Obligations.OpenDoneFails := by
  intro s wait
  refine ⟨fun ns => ?_, fun b ns row => ?_, fun ns last => ?_, fun notOpening notReopening named => ?_⟩
  · rw [exec_openDone, onOpenDone_of_wait wait (by rw [ns]; rfl), afterOpen_reopening (s := openAnswered false s) ns]
    rfl
  · rw [exec_openDone, onOpenDone_of_wait wait (by rw [ns]; rfl), afterOpen_opening (s := openAnswered false s) ns,
      if_neg (by decide), nextCandidate_row (s := openAnswered false s) row, ns]
    rfl
  · rw [exec_openDone, onOpenDone_of_wait wait (by rw [ns]; rfl), afterOpen_opening (s := openAnswered false s) ns,
      if_neg (by decide), nextCandidate_last (s := openAnswered false s) last]
    rfl
  · rw [exec_openDone, onOpenDone_of_wait wait named,
      afterOpen_other (s := openAnswered false s) notOpening notReopening]
    rfl

/-- Settles O42: the arcs of `afterClose`. -/
theorem closeDoneArcs : Obligations.CloseDoneArcs := by
  intro ok s wait
  refine ⟨fun b ns row => ?_, fun b ns row => ?_, fun ns last => ?_, fun ns => ?_,
    fun notPreclose notClosingFail notClosingChg named => ?_⟩
  · rw [exec_closeDone, onCloseDone_of_wait wait (by rw [ns]; rfl), afterClose_preclose (s := closeAnswered s) ns,
      openAttempt_of_rate (s := closeAnswered s) (rate_of_row row)]
    rfl
  · rw [exec_closeDone, onCloseDone_of_wait wait (by rw [ns]; rfl), afterClose_closingFail (s := closeAnswered s) ns,
      nextCandidate_row (s := closeAnswered s) row]
    rfl
  · rw [exec_closeDone, onCloseDone_of_wait wait (by rw [ns]; rfl), afterClose_closingFail (s := closeAnswered s) ns,
      nextCandidate_last (s := closeAnswered s) last]
    rfl
  · rw [exec_closeDone, onCloseDone_of_wait wait (by rw [ns]; rfl), afterClose_closingChg (s := closeAnswered s) ns]
    rfl
  · rw [exec_closeDone, onCloseDone_of_wait wait named,
      afterClose_other (s := closeAnswered s) notPreclose notClosingFail notClosingChg]
    rfl

/-! ## The identity packet -/

/-- The first `n` elements of a list that has them, one by one. -/
theorem take_eq_map_getD {n : Nat} {l : List Byte} (long : n ≤ l.length) :
    l.take n = (List.range n).map (fun i => l.getD i 0) := by
  apply List.ext_getElem
  · simp [long]
  · intro i low _
    have inside : i < l.length := by
      rw [List.length_take] at low
      omega
    simp [List.getD, List.getElem?_eq_getElem inside]

/-- The identity registers, in terms of the whole payload (R238). -/
theorem identityOf_take {payload : List Byte} (long : 24 ≤ payload.length) (dcsum : Bool) :
    (identityOf (payload.take 24) dcsum).fwVer =
        le32 (payload.getD 0 0) (payload.getD 1 0) (payload.getD 2 0) (payload.getD 3 0) ∧
      (identityOf (payload.take 24) dcsum).isoSize =
        le32 (payload.getD 4 0) (payload.getD 5 0) (payload.getD 6 0) (payload.getD 7 0) ∧
      (identityOf (payload.take 24) dcsum).serial.toList = (payload.drop 8).take 16 := by
  have first (i : Nat) (low : i < 24) : frameByte (payload.take 24) i = payload.getD i 0 := by
    simp [frameByte, List.getD, List.getElem?_take_of_lt low]
  refine ⟨?_, ?_, ?_⟩
  · simp only [identityOf, first _ (by decide : 0 < 24), first _ (by decide : 1 < 24), first _ (by decide : 2 < 24),
      first _ (by decide : 3 < 24)]
  · simp only [identityOf, first _ (by decide : 4 < 24), first _ (by decide : 5 < 24), first _ (by decide : 6 < 24),
      first _ (by decide : 7 < 24)]
  · have listed : (identityOf (payload.take 24) dcsum).serial.toList =
        (List.range 16).map (fun i => frameByte (payload.take 24) (8 + i)) := rfl
    have inside : 16 ≤ (payload.drop 8).length := by
      rw [List.length_drop]
      omega
    rw [listed, take_eq_map_getD (n := 16) (l := payload.drop 8) inside]
    refine List.map_congr_left fun i low => ?_
    rw [first _ (by have := List.mem_range.1 low; omega)]
    simp [List.getD]

end Sys2Proof.Machine
end

section
/-! PROOFS. The probe's success and two whole negotiations (44_baud_negotiator.md). -/

namespace Sys2Proof.Machine

/-! ## The identity packet arrives -/

/-- The state in which the probe's success is decided: the payload in `PBUF`, the identity and the rate taken. -/
def probeAnswered (dev : Half) (payload : List Byte) (csum : Half) (b : Word) (s : State) : State :=
  identified (payload.take 24) (checksumValid (dataFrame dev payload csum)) b
    { s with pbuf := pbufSetBytes s.pbuf 0 payload, cs := .idle, tmrEn := false }

/-- The identity packet ends the probe: lock, or change the rate (R235). -/
theorem exec_dataIn_probe {s : State} {payload : List Byte} {b : Word} (empty : s.rb = []) (waits : s.cs = .waitData)
    (owner : s.pend.owner = .bn) (probing : s.ns = .probing) (edl : s.edl = Config.identLen + 6)
    (length : payload.length = Config.identLen.toNat) (rate : Config.baudList[s.nidx.toNat]? = some b)
    (dev csum : Half) :
    exec (.dataIn dev payload csum) s = .next (
      if b = s.target then lockAt b (probeAnswered dev payload csum b s)
      else startChange (probeAnswered dev payload csum b s)) := by
  obtain ⟨identity, identFits⟩ := Config.identLen_bounds
  have rbufFits := Config.rbufCap_bounds.1
  have pbufFits : payload.length ≤ Config.pbufCap := by
    have := Config.pbufCap_bounds.1
    omega
  have expected : s.edl.toNat = payload.length + 6 := by rw [edl, ← edlOf_eq, edlOf_identLen, length]
  have read : memRead (pbufSetBytes s.pbuf 0 payload) 0 24 = .ok (payload.take 24) :=
    memRead_take_of_memWrite ((memWrite_ok _ _ _ _).2 ⟨by omega, rfl⟩) (by omega)
  have ends := (deliverData_bound (d := dataFields dev payload csum) waits pbufFits).trans
    (complete_of_probe_ok owner probing rfl read rate)
  rw [exec_dataIn empty expected (by omega), ends]
  rfl

/-- Settles O43: `exec_dataIn_probe`, register by register. -/
theorem probeSucceeds : Obligations.ProbeSucceeds := by
  intro dev csum payload b s empty waits owner probing edl length row
  have long : 24 ≤ payload.length := length ▸ Config.identLen_bounds.1
  obtain ⟨fwVer, isoSize, serial⟩ := identityOf_take long (checksumValid (dataFrame dev payload csum))
  obtain ⟨inside, outside⟩ := pbufGet_written s.pbuf payload
  refine ⟨_, exec_dataIn_probe empty waits owner probing edl length (rate_of_row row) dev csum, ?_⟩
  by_cases target : b = s.target
  · rw [if_pos target]
    exact ⟨rfl, rfl, fwVer, isoSize, serial, inside, outside, rfl, rfl, rfl, rfl, empty, rfl,
      fun _ => ⟨rfl, rfl, rfl, rfl, rfl, rfl, rfl⟩, fun other => absurd target other⟩
  · rw [if_neg target]
    exact ⟨rfl, rfl, fwVer, isoSize, serial, inside, outside, rfl, rfl, rfl, rfl, empty, rfl,
      fun same => absurd same target, fun _ => ⟨rfl, rfl, rfl, rfl, rfl, rfl, rfl, rfl, rfl⟩⟩

/-! ## Five failed opens -/

/-- The state after candidate `k` was opened at rate `b`, with the opens `tried` requested so far. -/
def openingAt (k : BitVec 3) (b : Word) (tried : List Word) (s : State) : State :=
  { s with tp := { isOpen := false, baud := b, wait := .open_ }, nidx := k, rb := [], ns := .opening,
           out := s.out ++ tried.map OutEvent.openTp }

/-- An accepted NEGOTIATE opens the first candidate. -/
theorem exec_negotiate_closed {target : Word} {s : State} (idle : s.cs = .idle) (txq : s.txq = 0)
    (wait : s.tp.wait = .none) (closed : s.tp.isOpen = false)
    (ns : s.ns = .untried ∨ s.ns = .locked ∨ s.ns = .exhausted ∨ s.ns = .failed) :
    exec (.negotiate target) s = .next (openingAt 0 9600 [9600] (withTarget target s)) := by
  have mirror : ({ s.tp with baud := 9600, wait := .open_ } : TpMirror) =
      { isOpen := false, baud := 9600, wait := .open_ } := by simp only [closed]
  rw [negotiateStarts target s idle txq wait ns, if_neg (by simp [closed]), openingAt, ← mirror]
  rfl

theorem openingAt_fails {k : BitVec 3} {b next : Word} {tried : List Word} {s : State}
    (row : (k, next) ∈ [((0 : BitVec 3), (115200 : Word)), (1, 57600), (2, 38400), (3, 19200)]) :
    exec (.openDone false) (openingAt k b tried s) = .next (openingAt (k + 1) next (tried ++ [next]) s) := by
  rw [(openDoneFails (openingAt k b tried s) rfl).2.1 next rfl row]
  simp only [openingAt, List.map_append, List.append_assoc, List.map_cons, List.map_nil]

/-- Settles O44: `openingAt_fails` along the list of rates, and the end of the list. -/
theorem fiveFailedOpensExhaust : Obligations.FiveFailedOpensExhaust := by
  intro target s idle txq wait closed ns
  have run : execAll (.negotiate target :: List.replicate 5 (.openDone false)) s =
      exec (.openDone false) (openingAt 4 19200 [9600, 115200, 57600, 38400, 19200] (withTarget target s)) := by
    rw [execAll_cons (exec_negotiate_closed idle txq wait closed ns)]
    simp only [List.replicate]
    rw [execAll_cons (openingAt_fails (next := 115200) (by decide)),
      execAll_cons (openingAt_fails (next := 57600) (by decide)),
      execAll_cons (openingAt_fails (next := 38400) (by decide)),
      execAll_cons (openingAt_fails (next := 19200) (by decide)), execAll_singleton]
    rfl
  rw [run, (openDoneFails (openingAt 4 19200 _ (withTarget target s)) rfl).2.2.1 rfl rfl]
  refine ⟨_, rfl, rfl, rfl, rfl, rfl, rfl, rfl, ?_⟩
  simp [openingAt, withTarget]

/-! ## A whole negotiation -/

/-- What stays the same from the open at 9600 to the end of the settle delay, with the output `out` so far. -/
structure AtFirstRate (target : Word) (out : List OutEvent) (t : State) : Prop where
  rb : t.rb = []
  edl : t.edl = Config.identLen + 6
  txq : t.txq = 0
  target : t.target = target
  nidx : t.nidx = 0
  tp : t.tp = { isOpen := true, baud := 9600, wait := .none }
  out : t.out = out

/-- An operation of the negotiator is outstanding. -/
structure BnWaits (cs : Cs) (kind : PendKind) (ns : Ns) (t : State) : Prop where
  cs : t.cs = cs
  owner : t.pend.owner = .bn
  kind : t.pend.kind = kind
  ns : t.ns = ns

/-- The write of a Command frame is answered in full (R154, R155). -/
theorem exec_txDone_command {s : State} (legal : Legal s) (txq : s.txq = 1) (busy : s.cs ≠ .idle)
    (kind : s.pend.kind ≠ .sendpay) : exec (.txDone true 12) s = .next { s with txq := 0 } := by
  have one : ¬ (s.txq ≠ 1 ∨ s.cs = .idle) := by
    rintro (h | h)
    · exact h txq
    · exact busy h
  rw [txDoneAnswers true 12 s legal, if_neg (by rw [txq]; decide), if_neg one, if_neg kind]
  exact if_pos ⟨rfl, rfl⟩

/-- From NEGOTIATE to the probe whose command is written. -/
theorem probe_issued {target : Word} {s : State} (idle : s.cs = .idle) (txq : s.txq = 0)
    (wait : s.tp.wait = .none) (closed : s.tp.isOpen = false)
    (ns : s.ns = .untried ∨ s.ns = .locked ∨ s.ns = .exhausted ∨ s.ns = .failed) :
    ∃ t, execAll [.negotiate target, .openDone true, .txDone true 12] s = .next t ∧
      AtFirstRate target
        (s.out ++ [.openTp 9600, .rxFlush, .txFrame (encodeCommand 0x01 Config.openParam)]) t ∧
      BnWaits .waitResp .recv .probing t := by
  have opened := (openDoneSucceeds (openingAt 0 9600 [9600] (withTarget target s)) rfl).1 rfl
  have one : s.txq + 1 = 1 := by rw [txq]; rfl
  rw [execAll_cons (exec_negotiate_closed idle txq wait closed ns), execAll_cons opened, execAll_singleton]
  refine ⟨_, exec_txDone_command ⟨nofun, nofun, rfl, nofun⟩ one nofun nofun, ?_, rfl, rfl, rfl, rfl⟩
  exact ⟨rfl, rfl, rfl, rfl, rfl, rfl, List.append_assoc _ _ _⟩

/-- The probe is acknowledged (R157). -/
theorem probe_acknowledged {target : Word} {out : List OutEvent} {t : State} (rate : AtFirstRate target out t)
    (probe : BnWaits .waitResp .recv .probing t) (d1 : Half) (v : Word) (c1 : Half) :
    ∃ u, exec (.responseAck d1 v c1) t = .next u ∧ AtFirstRate target out u ∧
      BnWaits .waitData .recv .probing u :=
  ⟨_, ackOpensDataPhase d1 c1 v t rate.rb probe.cs probe.kind,
    ⟨rate.rb, rate.edl, rate.txq, rate.target, rate.nidx, rate.tp, rate.out⟩,
    ⟨rfl, probe.owner, probe.kind, probe.ns⟩⟩

/-- From the identity packet to the change-baud command that is written. -/
theorem change_issued {target : Word} {out : List OutEvent} {t : State} (other : target ≠ 9600)
    (rate : AtFirstRate target out t) (probe : BnWaits .waitData .recv .probing t) (d2 c2 : Half)
    {payload : List Byte} (length : payload.length = Config.identLen.toNat) :
    ∃ u, execAll [.dataIn d2 payload c2, .txDone true 12] t = .next u ∧
      AtFirstRate target (out ++ [.rxFlush, .txFrame (encodeCommand 0x04 target)]) u ∧
      BnWaits .waitResp .cmd .changing u ∧ u.lockBaud = 9600 ∧ u.ident.valid = true := by
  obtain ⟨rb, edl, txq, target', nidx, tp, log⟩ := rate
  obtain ⟨cs, owner, -, ns⟩ := probe
  subst target' log
  have candidate : Config.baudList[t.nidx.toNat]? = some 9600 := by rw [nidx]; rfl
  have one : t.txq + 1 = 1 := by rw [txq]; rfl
  rw [execAll_cons (exec_dataIn_probe rb cs owner ns edl length candidate d2 c2), if_neg (Ne.symm other),
    execAll_singleton]
  refine ⟨_, exec_txDone_command ⟨nofun, nofun, rfl, ?_⟩ one nofun nofun, ?_, ⟨rfl, rfl, rfl, rfl⟩, rfl, rfl⟩
  · show t.tp.wait ≠ .reserved
    rw [tp]
    nofun
  · exact ⟨rb, edl, rfl, rfl, nidx, tp, rfl⟩

/-- The change-baud command is acknowledged and the settle delay runs off (R241, R242). -/
theorem settled {target : Word} {out : List OutEvent} {t : State} (rate : AtFirstRate target out t)
    (change : BnWaits .waitResp .cmd .changing t) (d3 : Half) (w : Word) (c3 : Half) :
    execAll (.responseAck d3 w c3 :: List.replicate 200 .tick) t = .next { t with
      cs := .idle, tmr := 0, tmrEn := false, ns := .closingChg, tp := { t.tp with wait := .close },
      out := t.out ++ [.closeTp] } := by
  have acked := (ackCompletes d3 c3 w t rate.rb change.cs).2 change.owner change.kind change.ns
  have counted := execAll_ticks 199 (left := 1)
    (s := { t with cs := .idle, tmrEn := true, ns := .settling, tmr := 200 }) rfl rfl Nat.one_pos
  have split : List.replicate 200 Instr.tick = List.replicate 199 Instr.tick ++ [Instr.tick] := List.replicate_succ'
  have named : t.pend.kind ≠ .reserved ∧ t.tp.wait ≠ .reserved := by
    rw [change.kind, rate.tp]
    exact ⟨nofun, nofun⟩
  have legal : Legal { t with cs := .idle, tmrEn := true, ns := .settling, tmr := 1 } :=
    ⟨nofun, named.1, rfl, named.2⟩
  rw [execAll_cons acked, split, execAll_append counted, execAll_singleton]
  exact (tickEffects _ legal).2.2.2 rfl rfl rfl rfl

/-- The answers to the close and to the open at the target end the negotiation (R243, R244). -/
theorem reopened {t : State} (wait : t.tp.wait = .close) (ns : t.ns = .closingChg) :
    execAll [.closeDone true, .openDone true] t = .next (lockAt t.target { t with
      tp := { isOpen := true, baud := t.target, wait := .none }, txq := 0, rb := [],
      out := t.out ++ [.openTp t.target] }) := by
  rw [execAll_cons ((closeDoneArcs true t wait).2.2.2.1 ns), execAll_singleton, (openDoneSucceeds _ rfl).2.1 rfl]
  rfl

/-- The events of a negotiation, cut where the stretches below end. -/
theorem split_at_answers (a b c d e f g : Instr) (ticks last : List Instr) :
    [a, b, c, d, e, f, g] ++ ticks ++ last = [a, b, c] ++ d :: ([e, f] ++ (g :: ticks ++ last)) := by
  simp only [List.cons_append, List.nil_append]

/-- Settles O45: the four stretches one after another. -/
theorem endToEndNegotiation : Obligations.EndToEndNegotiation := by
  intro target v w d1 d2 d3 c1 c2 c3 payload s _ idle txq wait closed ns other length
  have startable : s.ns = .untried ∨ s.ns = .locked ∨ s.ns = .exhausted ∨ s.ns = .failed :=
    ns.imp_right .inr
  obtain ⟨t, issued, rate, probe⟩ := probe_issued (target := target) idle txq wait closed startable
  obtain ⟨t', acknowledged, rate, data⟩ := probe_acknowledged rate probe d1 v c1
  obtain ⟨u, changed, rate', change, locked, identity⟩ := change_issued other rate data d2 c2 length
  have closing := settled rate' change d3 w c3
  obtain ⟨rb, edl, txq', target', nidx, tp, log⟩ := rate'
  rw [split_at_answers, execAll_append issued, execAll_cons acknowledged, execAll_append changed,
    execAll_append closing, reopened rfl rfl]
  subst target'
  refine ⟨_, rfl, rfl, rfl, locked, rfl, nidx, rfl, rfl, rfl, rfl, rfl, edl, identity, rfl, ?_⟩
  rw [log]
  simp only [lockAt, emitResult, List.append_assoc, List.cons_append, List.nil_append]

end Sys2Proof.Machine
end

section
/-! PROOFS. The input port and the step: which arrival is taken (60_exceptions.md R265) and what it runs. -/

namespace Sys2Proof.Machine

/-! ## The arrival taken -/

theorem takeFirst_eq_none_iff (now : List PortItem) : takeFirst now = none ↔ now = [] := by
  cases now with
  | nil => exact ⟨fun _ => rfl, fun _ => rfl⟩
  | cons x xs =>
    refine ⟨fun h => ?_, nofun⟩
    rw [takeFirst] at h
    split at h
    · cases h
    · split at h <;> cases h

/-- With a choice left among later arrivals, the head is taken unless that choice has a strictly higher priority. -/
theorem takeFirst_cons {x y : PortItem} {xs ys : List PortItem} (h : takeFirst xs = some (y, ys)) :
    takeFirst (x :: xs) = if itemPriority y < itemPriority x then some (y, x :: ys) else some (x, xs) := by
  rw [takeFirst, h]

/-- `x` is the first of the highest priority in `now`, and `rest` the others in their order. -/
def FirstOfHighest (now : List PortItem) (x : PortItem) (rest : List PortItem) : Prop :=
  ∃ before after : List PortItem, now = before ++ x :: after ∧ rest = before ++ after ∧
    (∀ y ∈ before, itemPriority x < itemPriority y) ∧ (∀ y ∈ after, itemPriority x ≤ itemPriority y)

theorem FirstOfHighest.le {now rest : List PortItem} {x y : PortItem} (h : FirstOfHighest now x rest)
    (mem : y ∈ now) : itemPriority x ≤ itemPriority y := by
  obtain ⟨before, after, rfl, -, above, least⟩ := h
  rcases List.mem_append.1 mem with earlier | here
  · exact (above y earlier).le
  · rcases List.mem_cons.1 here with rfl | later
    · exact le_rfl
    · exact least y later

theorem firstOfHighest_takeFirst (now : List PortItem) : ∀ {x : PortItem} {rest : List PortItem},
    takeFirst now = some (x, rest) → FirstOfHighest now x rest := by
  induction now with
  | nil => exact nofun
  | cons z zs ih =>
    intro x rest taken
    cases later : takeFirst zs with
    | none =>
      cases (takeFirst_eq_none_iff zs).1 later
      cases taken
      exact ⟨[], [], rfl, rfl, nofun, nofun⟩
    | some choice =>
      obtain ⟨y, ys⟩ := choice
      have chosen : FirstOfHighest zs y ys := ih later
      rw [takeFirst_cons later] at taken
      split at taken
      · next higher =>
        cases taken
        obtain ⟨before, after, rfl, rfl, above, least⟩ := chosen
        exact ⟨z :: before, after, rfl, rfl, List.forall_mem_cons.2 ⟨higher, above⟩, least⟩
      · next notHigher =>
        cases taken
        exact ⟨[], zs, rfl, rfl, nofun, fun w mem => (not_lt.1 notHigher).trans (chosen.le mem)⟩

/-! ## Priorities -/

theorem itemPriority_itemOf {p : Port} {bytes : List Byte} {i : Instr} (decoded : decode p bytes = .ok i) :
    itemPriority (itemOf p bytes) = instrPriority i := by
  have record : itemPriority (itemOf p bytes) = recordPriority p bytes := by cases p <;> rfl
  rw [record, recordPriority, decoded]

/-- The host port's instructions all have one place, but SESSION_RESET. -/
theorem instrPriority_of_host {i : Instr} (host : portOf i = .host) (other : i ≠ .sessionReset) :
    instrPriority i = 6 := by
  cases i with
  | sessionReset => exact absurd rfl other
  | rxChunk | txDone | openDone | closeDone | tpError | tick | reservedEvt6 | reservedEvt7 => cases host
  | responseAck | responseNack | responseOtherMarker | dataIn => cases host
  | _ => rfl

theorem instrPriority_pos (i : Instr) : 0 < instrPriority i := by
  cases i <;> exact Nat.succ_pos _

/-- Settles O57: `firstOfHighest_takeFirst`, and the table of priorities. -/
theorem highestPriorityFirst : Obligations.HighestPriorityFirst := by
  refine ⟨fun now rest x => firstOfHighest_takeFirst now, fun p bytes i => itemPriority_itemOf, ?order, ?host,
    fun dev mark csum p bytes payload => ⟨rfl, rfl, rfl, rfl⟩, by decide, by decide, instrPriority_pos,
    fun a bytes => Nat.lt_succ_self 5⟩
  case order =>
    intro bytes ok count
    exact ⟨Nat.lt_succ_self 1, rfl, rfl, Nat.lt_succ_self 2, Nat.lt_succ_self 3, Nat.lt_succ_self 4⟩
  case host =>
    intro i host other
    rw [instrPriority_of_host host other]
    exact ⟨Nat.lt_succ_self 5, fun j host' other' => (instrPriority_of_host host' other').symm⟩

/-! ## The step -/

theorem step_of_next {s : State} {x : PortItem} {rest : List (List PortItem)}
    (next : nextItem s.port = some (x, rest)) :
    step s = runItem x { s with port := rest } := by
  rw [step, next]

theorem nextItem_cons_some {now rest : List PortItem} {x : PortItem} (later : List (List PortItem))
    (taken : takeFirst now = some (x, rest)) : nextItem (now :: later) = some (x, rest :: later) := by
  rw [nextItem, taken]

theorem nextItem_cons_none {now : List PortItem} (later : List (List PortItem)) (none : takeFirst now = none) :
    nextItem (now :: later) = nextItem later := by
  rw [nextItem, none]

/-- A record at the port runs the instruction it decodes to. -/
theorem runItem_itemOf {p : Port} {bytes : List Byte} {i : Instr} (decoded : decode p bytes = .ok i) (s : State) :
    runItem (itemOf p bytes) s = exec i s := by
  have record : runItem (itemOf p bytes) s = runRecord p bytes s := by cases p <;> rfl
  rw [record, runRecord, decoded]

theorem decode_tableRecord {nbits w : Nat} {i : Instr} (word : decodeTableWord nbits w = some i) :
    decode (tableRecord nbits w).1 (tableRecord nbits w).2 = .ok i := by
  rw [decodeTableWord] at word
  split at word
  · next decoded => rw [decoded, Option.some.inj word]
  · cases word

theorem hostWrite_fits {a : Nat} {bytes : List Byte} (s : State) (fits : a + bytes.length ≤ Config.pbufCap) :
    hostWrite a bytes s = .ok { s with pbuf := pbufSetBytes s.pbuf a bytes } := by
  rw [hostWrite, (memWrite_ok _ _ _ _).2 ⟨fits, rfl⟩]

/-- Settles O56: `step` is `runItem` of the arrival `nextItem` gives. -/
theorem stepRunsDecodedInstruction : Obligations.StepRunsDecodedInstruction := by
  refine ⟨?record, ?word, ?powerOn, ?pbufWrite, ?idle, rfl, fun now rest later x => nextItem_cons_some later,
    fun now later => nextItem_cons_none later, takeFirst_eq_none_iff⟩
  case record =>
    intro s p bytes rest i next decoded _
    rw [step_of_next next, runItem_itemOf decoded]
  case word =>
    intro s nbits w i word
    rw [step_of_next (s := s.withFetchWord nbits w) (nextItem_cons_some s.port rfl),
      runItem_itemOf (decode_tableRecord word)]
    rfl
  case powerOn =>
    intro s rest next
    rw [step_of_next next]
    rfl
  case pbufWrite =>
    intro s rest a bytes next fits
    refine ⟨pbufSetBytes s.pbuf a bytes, ?_, fun k low => ?_, fun k outside => ?_⟩
    · exact (step_of_next next).trans (congrArg outcomeOf (hostWrite_fits { s with port := rest } fits))
    · rw [pbufGet_setBytes, if_pos ⟨Nat.le_add_right a k, Nat.add_lt_add_left low a⟩, Nat.add_sub_cancel_left]
    · rw [pbufGet_setBytes, if_neg (by omega)]
  case idle =>
    intro s none
    rw [step, none]

end Sys2Proof.Machine
end
